-- ==== Sys2Proof/Word.lean ====
section
/-! DEFINITION. The word types of the port block (00_scope R9, R10): a byte, `u16`, `u32` and the 6-bit frame id
(30_encoding R100). Arithmetic on them is modulo 2^width, as R9 asks. -/

namespace Sys2Proof

/-- An unsigned 8-bit value (R9). -/
abbrev Byte := BitVec 8
/-- `u16` (R9). -/
abbrev U16 := BitVec 16
/-- `u32` (R9). -/
abbrev U32 := BitVec 32
/-- The 6-bit command code of a frame (R100). -/
abbrev FrameId := BitVec 6

/-- The least-significant `w` bits of `v` (R10). -/
abbrev lowBits (w : Nat) {n : Nat} (v : BitVec n) : BitVec w := v.setWidth w

end Sys2Proof
end

