-- ==== Sys2Proof/Config.lean ====
section
/-! DEFINITION. The implementation parameters of 00_scope R7: the values the source fixes, the record `Params` of the
values it leaves OPEN (with R8's constraints as proof fields, so that an instance that breaks one cannot be built:
U15's `refuse`), and the FREE VALUES: opaque constants without a body, of which nothing can be proved. -/

namespace Sys2Proof.Config

/-- `MAX_PAYLOAD` (R7). -/
abbrev maxPayload : Nat := 255
/-- `CHUNK_DATA_MAX` (R7). -/
abbrev chunkDataMax : Nat := 251
/-- `BLOB_CAP` (R7, D48). -/
abbrev blobCap : Nat := 2048
/-- `TELEMETRY_CAP` (R7, R352). -/
abbrev telemetryCap : Nat := 200
/-- `TELEMETRY_ENTRY` (R7). -/
abbrev telemetryEntry : Nat := 6
/-- `RATE_MAX` in Hz (R7). `RATE_MIN` = 1 needs no code: 0 means the default (R230). -/
abbrev rateMax : U16 := 100
/-- `RATE_DEFAULT` in Hz (R7). -/
abbrev rateDefault : U16 := 10
/-- `N_OUT` (R7, R351). -/
abbrev nOut : Nat := 30
/-- `N_AN` (R7, R351). -/
abbrev nAn : Nat := 20
/-- `N_DIN` (R7, R351). -/
abbrev nDin : Nat := 8
/-- The longest flash record: 8 header bytes and 2048 data bytes, no padding (45 R331). -/
abbrev recordMax : Nat := 2056

/-- `CRC32_PARAMS` (40_crc R150): the record a model takes so that another parameter set can be substituted. -/
structure Crc32Params where
  /-- the polynomial, most-significant bit first -/
  poly : U32
  init : U32
  refIn : Bool
  refOut : Bool
  xorOut : U32
deriving DecidableEq, Repr

/-- CRC-32/ISO-HDLC, the values of R150. -/
def crc32IsoHdlc : Crc32Params :=
  { poly := 0x04C11DB7, init := 0xFFFFFFFF, refIn := true, refOut := true, xorOut := 0xFFFFFFFF }

/-- The reliability relation of a REL frame (43 R272, R283): `relOnce` is the default instance `REL_ONCE`;
`openRel` is the OPEN relation, whose choices the environment makes (log 18, 19). -/
inductive Reliability
  | relOnce
  | openRel
deriving DecidableEq, Repr

/-- `FRAME_CODEC` (43 D32, U14): the default codec of 43 Part B, or another one, of which the model knows its number
only (log 20). -/
inductive CodecInstance
  | min
  | other (n : Nat)
deriving DecidableEq, Repr

/-- `Exec.loadBinary` (R340, U14): the default instance of R341, or another one, of which the model knows its number
only (log 16). -/
inductive ExecInstance
  | blobStore
  | other (n : Nat)
deriving DecidableEq, Repr

/-- What `Exec.loadBinary` may write (R340): the blob and the executor's own state, its channel table in index order
among it (R350). -/
structure ExecState where
  blob : List Byte
  store : List Byte
  channels : List (U16 × U32)
deriving DecidableEq, Repr, Inhabited

/-- Every id that R101 to R103 name, `ID_RESET` apart: the nine other request ids, the ten reply ids and the two
reserved ids (R8). -/
def takenIds : List FrameId :=
  [0x01, 0x10, 0x14, 0x16, 0x18, 0x20, 0x21, 0x28, 0x30,
   0x02, 0x11, 0x15, 0x17, 0x19, 0x22, 0x29, 0x31, 0x3E, 0x3F,
   0x12, 0x13]

/-- The parameters R7 leaves OPEN. R8's constraints are proof fields; the two about the flash record are read from
R76 and R79 (log 4). -/
structure Params where
  /-- `TX_CAP` -/
  txCap : Nat
  /-- `RX_CAP` -/
  rxCap : Nat
  /-- `ID_RESET` -/
  idReset : FrameId
  capDeviceType : Byte
  capFwMajor : Byte
  capFwMinor : Byte
  capFwPatch : Byte
  capHbridgeCount : Byte
  capCanCount : Byte
  /-- `FLASH_SECTOR`: its first address -/
  sectorBase : Nat
  /-- `FLASH_SECTOR`: its length in bytes -/
  sectorSize : Nat
  /-- `FLASH_RECORD_ADDR` -/
  recordAddr : Nat
  flashPad : Byte
  flashErased : Byte
  /-- `WDT_TIMEOUT_MS` -/
  wdtTimeoutMs : Nat
  /-- `CRC32_PARAMS` -/
  crc32 : Crc32Params
  reliability : Reliability
  /-- `FRAME_CODEC` -/
  codec : CodecInstance
  /-- `Exec.loadBinary` -/
  exec : ExecInstance
  /-- `N_PORTS` -/
  nPorts : Nat
  txCap_pos : 1 ≤ txCap
  rxCap_two : 2 ≤ rxCap
  idReset_free : idReset ∉ takenIds
  record_aligned : recordAddr % 4 = 0
  record_low : sectorBase ≤ recordAddr
  record_high : recordAddr + recordMax ≤ sectorBase + sectorSize
  nPorts_pos : 1 ≤ nPorts
deriving DecidableEq, Repr

/-- What the flash device answers to one erase (45 R330, R338): done, failed, or the watchdog expired inside it. -/
inductive EraseOutcome
  | done
  | failed
  | expired
deriving DecidableEq, Repr, Inhabited

/-! ### Free values (no body: log 3, 7, 12, 14 to 17, 19, 20) -/

/-- A free number behind each OPEN numeric parameter at `State.reset` (log 3). -/
opaque freeNat : Nat → Nat
/-- A free byte behind each OPEN byte parameter at `State.reset` (log 3). -/
opaque freeParamByte : Nat → Byte
/-- The byte that slot `i` of port `k`'s ring buffer holds after reset number `n` (U11, log 7). -/
opaque ramByte (n k i : Nat) : Byte
/-- The byte that blob index `i` holds when no chunk of this upload wrote it (R341, log 15); `n` is the draw. -/
opaque gapByte : Nat → Nat → Byte
/-- The outcome of an erase the environment has not scripted (U18, log 12). -/
opaque eraseOutcome : Nat → EraseOutcome
/-- Whether a program-word call the environment has not scripted succeeds (U18, log 12). -/
opaque programOk : Nat → Bool
/-- The byte at address `a`, which held `old`, after a failed or expired erase or a failed program (U6, U7, log 14). -/
opaque flashByte : Nat → Nat → Byte → Byte
/-- `EXEC_CHANNELS` (R341, U17, log 16). -/
opaque execChannels : List Byte → U16 → U16 → U16
/-- What executor `n` other than the default makes of a LoadBinary payload, and its `channels_loaded` (R340, log 16). -/
opaque execOther (n : Nat) (payload : List Byte) : ExecState → ExecState × U16
/-- The parser state of codec `n` other than the default after `Transport.init` (R46, log 20). -/
opaque codecInit (n : Nat) : List Byte
/-- What that codec's parser makes of a received byte: its next state, and, if it takes the byte for the end of a frame,
how many bytes since its last delivery came before that frame (R270, log 20). -/
opaque codecReceive (n : Nat) : Crc32Params → List Byte → Byte → List Byte × Option Nat
/-- The integrity check of that codec: the id, sequence byte and payload that the wire bytes of a reception carry, if they
pass it (R271 (c), log 20). -/
opaque codecCheck (n : Nat) : Crc32Params → List Byte → Option (FrameId × Option Byte × List Byte)
/-- That parser's state once a frame it delivered has been handled (log 20). -/
opaque codecDelivered (n : Nat) : List Byte → List Byte
/-- The wire bytes that codec gives a frame (R271 (d), log 20). -/
opaque codecWire (n : Nat) : Crc32Params → FrameId → Option Byte → List Byte → List Byte
/-- The bytes beyond the payload that its space test counts (R271 (d), log 20). -/
opaque codecOverhead (n : Nat) : Nat
/-- The raw state of a driver channel, which held `old`, after a request for `st` (R339, U16, log 17). -/
opaque driverResponse : Nat → Byte → Byte → Byte → Byte
/-- Whether the OPEN reliability layer passes an in-sequence frame to `dispatch` (R283, log 19). -/
opaque relAccept : Nat → Bool

/-- The ids `ID_RESET` may take (R8). -/
def freeIds : List FrameId :=
  ((List.range 64).map (BitVec.ofNat 6)).filter (fun i => decide (i ∉ takenIds))

/-- `ID_RESET` at `State.reset`: one of the allowed ids, nothing says which (log 3). -/
def idReset : FrameId := freeIds.getD (freeNat 2 % 43) 0

theorem freeIds_getD_free : ∀ k : Fin 43, freeIds.getD k.val 0 ∉ takenIds := by decide

theorem idReset_free : idReset ∉ takenIds :=
  freeIds_getD_free ⟨freeNat 2 % 43, Nat.mod_lt _ (by decide)⟩

/-- The parameters of the machine at `State.reset`: OPEN values are free within R8; CRC-32, codec, reliability
layer and executor are the instances the spec gives as defaults (R150, R272, R273, R341). -/
def params : Params where
  txCap := freeNat 0 + 1
  rxCap := freeNat 1 + 2
  idReset := idReset
  capDeviceType := freeParamByte 0
  capFwMajor := freeParamByte 1
  capFwMinor := freeParamByte 2
  capFwPatch := freeParamByte 3
  capHbridgeCount := freeParamByte 4
  capCanCount := freeParamByte 5
  sectorBase := 4 * freeNat 3 - freeNat 4
  sectorSize := (4 * freeNat 3 - (4 * freeNat 3 - freeNat 4)) + recordMax + freeNat 5
  recordAddr := 4 * freeNat 3
  flashPad := freeParamByte 6
  flashErased := freeParamByte 7
  wdtTimeoutMs := freeNat 6
  crc32 := crc32IsoHdlc
  reliability := .relOnce
  codec := .min
  exec := .blobStore
  nPorts := freeNat 7 + 1
  txCap_pos := Nat.le_add_left _ _
  rxCap_two := Nat.le_add_left _ _
  idReset_free := idReset_free
  record_aligned := Nat.mul_mod_right 4 _
  record_low := Nat.sub_le _ _
  record_high := by omega
  nPorts_pos := Nat.le_add_left _ _

end Sys2Proof.Config
end

