-- ==== Sys2Proof/Syntax.lean ====
section
/-! DEFINITION. The instructions: one constructor per row of spec/opcode_table.json (00_scope R3). -/

namespace Sys2Proof

/-- The reliability mode the block passes with a frame (00_scope R14). -/
inductive SendMode
  | rel
  | unrel
deriving DecidableEq, Repr

/-- The instructions of the block. A FRAME_ID or FRAME_ID_REPLY row stands for the RECEPTION of a frame with that id and
the given payload (a reply id received takes the unrecognized path, R104 and the table's note); a PORT_OP row stands for
a call of that operation by the executing context. -/
inductive Instr
  -- requests (30_encoding R101)
  | ping (payload : List Byte)
  | reset (payload : List Byte)
  | getConfig (payload : List Byte)
  | saveConfig (payload : List Byte)
  | clearConfig (payload : List Byte)
  | loadBinary (payload : List Byte)
  | startStream (payload : List Byte)
  | stopStream (payload : List Byte)
  | setOutput (payload : List Byte)
  | getCapabilities (payload : List Byte)
  -- reserved and unrecognized ids (R103, R104)
  | loadConfigReserved (payload : List Byte)
  | configAckReserved (payload : List Byte)
  | unrecognized (id : FrameId) (payload : List Byte)
  -- reply ids received as requests (R102, R104)
  | pong (payload : List Byte)
  | configData (payload : List Byte)
  | flashAck (payload : List Byte)
  | clearConfigAck (payload : List Byte)
  | binaryAck (payload : List Byte)
  | data (payload : List Byte)
  | outputAck (payload : List Byte)
  | capabilities (payload : List Byte)
  | ack (payload : List Byte)
  | nack (payload : List Byte)
  -- port operations (R3 (a))
  | crc16Step (c : U16) (b : Byte)
  | crc16 (bytes : List Byte)
  | crc32Step (c : U32) (b : Byte)
  | crc32 (bytes : List Byte)
  | ringPut (b : Byte)
  | ringGet
  | beginSend
  | appendByte (b : Byte)
  | endSend
  | spaceRemaining
  | nowMs
  | feed (b : Byte)
  | drainAndRelease
  | tick
  | dispatch (id : FrameId) (payload : List Byte)
  | reply (id : FrameId) (payload : List Byte) (mode : SendMode)
deriving DecidableEq, Repr

end Sys2Proof
end

