-- ==== Sys2Proof/WellFormed.lean ====
section
/-! DEFINITION. Which terms of `Instr` are instructions of the block: payloads of at most 255 bytes (30_encoding R100,
R110) and, for `unrecognized`, an id no row names (R104). -/

namespace Sys2Proof

/-- A payload the block can see (R100, R110). -/
abbrev payloadOk (payload : List Byte) : Bool := decide (payload.length ≤ Config.maxPayload)

/-- `id` is neither a named id nor `ID_RESET` (R104). -/
abbrev unnamedId (idReset id : FrameId) : Bool := decide (id ∉ Config.takenIds) && decide (id ≠ idReset)

/-- Well-formed instructions, for a block whose `ID_RESET` is `idReset`. -/
def Instr.wf (idReset : FrameId) : Instr → Bool
  | .ping p => payloadOk p
  | .reset p => payloadOk p
  | .getConfig p => payloadOk p
  | .saveConfig p => payloadOk p
  | .clearConfig p => payloadOk p
  | .loadBinary p => payloadOk p
  | .startStream p => payloadOk p
  | .stopStream p => payloadOk p
  | .setOutput p => payloadOk p
  | .getCapabilities p => payloadOk p
  | .loadConfigReserved p => payloadOk p
  | .configAckReserved p => payloadOk p
  | .unrecognized id p => unnamedId idReset id && payloadOk p
  | .pong p => payloadOk p
  | .configData p => payloadOk p
  | .flashAck p => payloadOk p
  | .clearConfigAck p => payloadOk p
  | .binaryAck p => payloadOk p
  | .data p => payloadOk p
  | .outputAck p => payloadOk p
  | .capabilities p => payloadOk p
  | .ack p => payloadOk p
  | .nack p => payloadOk p
  | .crc16Step _ _ => true
  | .crc16 _ => true
  | .crc32Step _ _ => true
  | .crc32 _ => true
  | .ringPut _ => true
  | .ringGet => true
  | .beginSend => true
  | .appendByte _ => true
  | .endSend => true
  | .spaceRemaining => true
  | .nowMs => true
  | .feed _ => true
  | .drainAndRelease => true
  | .tick => true
  | .dispatch _ p => payloadOk p
  | .reply _ p _ => payloadOk p

end Sys2Proof
end

