-- ==== Sys2Proof/Decode.lean ====
section
/-! DEFINITION. The decoder and the encoder of frames (30_encoding). A frame's bytes are `[id/control][length][payload]`,
the stuffed part of the default codec's frame less its CRC (43 R273, R276; log 2). Port operations have no encoding. -/

namespace Sys2Proof

/-- Why bytes are no frame. -/
inductive DecodeError
  | noId          -- no byte at all
  | noLength      -- no length byte
  | sequenced     -- bit 7 of the id/control byte: a sequenced frame, the reliability layer's (R276, R283)
  | shortPayload  -- fewer payload bytes than the length says
deriving DecidableEq, Repr

/-- R101 to R105: the exact match of the 6-bit id. Named ids stand before `ID_RESET`, which R8 keeps apart from them. -/
def decodeId (idReset id : FrameId) (p : List Byte) : Instr :=
  if id = 0x01 then .ping p
  else if id = 0x10 then .getConfig p
  else if id = 0x14 then .saveConfig p
  else if id = 0x16 then .clearConfig p
  else if id = 0x18 then .loadBinary p
  else if id = 0x20 then .startStream p
  else if id = 0x21 then .stopStream p
  else if id = 0x28 then .setOutput p
  else if id = 0x30 then .getCapabilities p
  else if id = 0x12 then .loadConfigReserved p
  else if id = 0x13 then .configAckReserved p
  else if id = 0x02 then .pong p
  else if id = 0x11 then .configData p
  else if id = 0x15 then .flashAck p
  else if id = 0x17 then .clearConfigAck p
  else if id = 0x19 then .binaryAck p
  else if id = 0x22 then .data p
  else if id = 0x29 then .outputAck p
  else if id = 0x31 then .capabilities p
  else if id = 0x3E then .ack p
  else if id = 0x3F then .nack p
  else if id = idReset then .reset p
  else .unrecognized id p

/-- The id of an id/control byte: `idc & 0x3F`, bit 6 ignored (R276). -/
def idOf (idc : Byte) : FrameId := idc.extractLsb' 0 6

/-- The id/control byte of an unreliable frame: bits 7 and 6 are 0 (R276). -/
def idByte (id : FrameId) : Byte := id.zeroExtend 8

/-- The bytes of a frame as the transport hands it to `dispatch`. -/
def frameBytes (id : FrameId) (payload : List Byte) : List Byte :=
  idByte id :: BitVec.ofNat 8 payload.length :: payload

/-- Reads one frame and gives the bytes behind it. Total; what is no frame is rejected by name. -/
def decode (idReset : FrameId) : List Byte → Except DecodeError (Instr × List Byte)
  | [] => .error .noId
  | [_] => .error .noLength
  | idc :: len :: rest =>
    if idc.getLsbD 7 then .error .sequenced
    else if rest.length < len.toNat then .error .shortPayload
    else .ok (decodeId idReset (idOf idc) (rest.take len.toNat), rest.drop len.toNat)

/-- The id and payload of a frame instruction; `none` for a port operation, which has no encoding. -/
def Instr.frame? (idReset : FrameId) : Instr → Option (FrameId × List Byte)
  | .ping p => some (0x01, p)
  | .reset p => some (idReset, p)
  | .getConfig p => some (0x10, p)
  | .saveConfig p => some (0x14, p)
  | .clearConfig p => some (0x16, p)
  | .loadBinary p => some (0x18, p)
  | .startStream p => some (0x20, p)
  | .stopStream p => some (0x21, p)
  | .setOutput p => some (0x28, p)
  | .getCapabilities p => some (0x30, p)
  | .loadConfigReserved p => some (0x12, p)
  | .configAckReserved p => some (0x13, p)
  | .unrecognized id p => some (id, p)
  | .pong p => some (0x02, p)
  | .configData p => some (0x11, p)
  | .flashAck p => some (0x15, p)
  | .clearConfigAck p => some (0x17, p)
  | .binaryAck p => some (0x19, p)
  | .data p => some (0x22, p)
  | .outputAck p => some (0x29, p)
  | .capabilities p => some (0x31, p)
  | .ack p => some (0x3E, p)
  | .nack p => some (0x3F, p)
  | .crc16Step _ _ => none
  | .crc16 _ => none
  | .crc32Step _ _ => none
  | .crc32 _ => none
  | .ringPut _ => none
  | .ringGet => none
  | .beginSend => none
  | .appendByte _ => none
  | .endSend => none
  | .spaceRemaining => none
  | .nowMs => none
  | .feed _ => none
  | .drainAndRelease => none
  | .tick => none
  | .dispatch _ _ => none
  | .reply _ _ _ => none

/-- The bytes of a frame instruction (R273, R276). -/
def encode (idReset : FrameId) (i : Instr) : Option (List Byte) :=
  (i.frame? idReset).map fun f => frameBytes f.1 f.2

/-- Byte `k` of an instruction given as the number the opcode table uses: bit 0 is bit 0 of the first byte, the bits from
`nbits` up are 0. -/
def wordByte (nbits w k : Nat) : Byte := BitVec.ofNat 8 ((w % 2 ^ nbits) >>> (8 * k))

/-- The bytes of that instruction: id/control, length, and as many payload bytes as the length says. -/
def wordBytes (nbits w : Nat) : List Byte :=
  (List.range (2 + (wordByte nbits w 1).toNat)).map (wordByte nbits w)

/-- The instruction the decoder reads from the bits `w`. -/
def decodeTableWord (nbits w : Nat) : Option Instr :=
  match decode Config.params.idReset (wordBytes nbits w) with
  | .ok (i, _) => some i
  | .error _ => none

end Sys2Proof
end

