-- ==== Sys2Proof/Machine/State.lean ====
section
/-! DEFINITION. The state of the machine as plain data (10_state R30 to R49, 43 R280, 45), its named updates, and the
state after reset (70 R441, R443). -/

namespace Sys2Proof.Machine

/-- The two execution contexts: M (main loop) and I (interrupt) (20_memory R80). -/
inductive Ctx
  | m
  | i
deriving DecidableEq, Repr

/-- Why the machine stops (60 R403). Both are `raise Fault(kind)` of the spec; nothing else raises a fault. -/
inductive Fault
  /-- `TX_FOREIGN_BATCH`: raised by `append_byte` and `end_send` for a context that does not own the batch in flight or
  got BUSY for it (41 R173, R175). Safe: the spec's own fault. -/
  | txForeignBatch
  /-- `TRANSPORT_REENTERED`: raised by a `Transport.poll` or `Transport.housekeeping` entered while one is active on the
  port (43 R285). Safe: the spec's own fault. -/
  | transportReentered
deriving DecidableEq, Repr

/-- Why the machine has no next state without a fault of the spec. -/
inductive Refusal
  /-- Raised by `exec` for an instruction without a meaning. Safe. -/
  | notModelled (mnemonic : String)
  /-- Raised by `step` where the bytes delivered to `dispatch` are no frame (R100). Safe: no frame, no instruction. -/
  | badFrame (e : DecodeError)
  /-- Raised by `step` for a called instruction that is not well-formed: a payload over 255 bytes, or `unrecognized` with
  a named id (R100, R104, R110). Safe. -/
  | illFormed
  /-- Raised by `ring_get` on an empty ring, a call 41 R180 says is impossible. Safe (log 23). -/
  | ringGetOnEmpty
deriving DecidableEq, Repr

/-- Operations that can wait for the operation above them on an activation stack and then only return. -/
inductive OpName
  | dispatch
  | reply
  | send
deriving DecidableEq, Repr

/-- A frame as the codec transmits it: its id, the sequence byte of a reliable frame, its payload (43 R273). -/
structure TxFrame where
  id : FrameId
  seq : Option Byte
  payload : List Byte
deriving DecidableEq, Repr

/-- Where the transmit sequence of 43 R275 stands. -/
inductive TransmitPhase
  | spaceTest (f : TxFrame)
  | beginBatch (f : TxFrame)
  | appendBytes (rest : List Byte)
deriving DecidableEq, Repr

/-- The phase of an `end_send` activation (R39). -/
inductive SendPhase
  | txByte (i : Nat)
  | txTc
  | drain
deriving DecidableEq, Repr

/-- Where a `tick` stands once its housekeeping has been entered (44 R310). -/
inductive TickPhase
  | decide
  | emit (k now : U32)
  | drain
deriving DecidableEq, Repr

/-- One entry of an activation stack: an operation entered and not yet left (R39), with the point it has reached. -/
inductive Activation
  /-- `feed` after its direct poll was entered: when on top it drains (R185). -/
  | feed
  /-- `drain_and_release` (R186). -/
  | drain
  | tick (ph : TickPhase)
  | endSend (ph : SendPhase)
  /-- `Transport.poll([b])` entered, `b` not yet consumed (R270). -/
  | poll (b : Byte)
  /-- `Transport.poll` after a byte that completed a frame: when on top the frame has been handled, and the parser goes on
  before the poll returns (R270, R283). -/
  | delivered
  /-- `Transport.housekeeping()` entered (R271 (f)). -/
  | housekeeping
  /-- `dispatch` entered with the bytes of a frame, its handler not yet run (R220). -/
  | dispatch (frame : List Byte)
  /-- `Transport.send` running the transmit sequence (R275). -/
  | transmit (ph : TransmitPhase)
  /-- `Transport.send` of a REL frame under the OPEN relation, the frame queued (R272). -/
  | relSent
  /-- GetConfig's loop with chunks `k`, …, `total`−1 still to send (R225). -/
  | getConfig (k total : Nat)
  /-- The Reset handler after its reply: `Sys.reset()` is next (R224). -/
  | sysReset
  /-- An operation that only waits for the one above it to return. -/
  | awaiting (op : OpName)
deriving DecidableEq, Repr

/-- What a port operation returned to its caller (the model's own, log 24). -/
inductive Returned
  | nothing
  | crc16 (v : U16)
  | crc32 (v : U32)
  /-- `ring_put`: true for STORED, false for DROPPED (R170). -/
  | put (stored : Bool)
  | byte (b : Byte)
  /-- `begin_send`: true for OK, false for BUSY (R171). -/
  | begun (ok : Bool)
  | space (n : Nat)
  | time (t : U32)
  /-- `tick`: SKIPPED (R310). -/
  | skipped
deriving DecidableEq, Repr

/-- A context: its activation stack, innermost first (R39), and the last result (log 24). -/
structure Context where
  stack : List Activation
  ret : Returned
deriving DecidableEq, Repr

/-- TxBatch (R32 to R34). `buf` holds exactly the bytes `tx.buf[0..tx.len)` (log 7). -/
structure TxBatch where
  buf : List Byte
  inProgress : Bool
  owner : Option Ctx
  rejectedM : Bool
  rejectedI : Bool
deriving DecidableEq, Repr

/-- `tx.len` (R32). -/
def TxBatch.len (t : TxBatch) : Nat := t.buf.length

/-- RxRing (R35): the whole array, the write index and the read index. -/
structure Ring where
  buf : List Byte
  head : Nat
  tail : Nat
deriving DecidableEq, Repr

/-- StreamState (R41). -/
structure Stream where
  active : Bool
  periodMs : U32
  lastEmitTick : U32
  counter : U32
deriving DecidableEq, Repr

/-- The UART (R44). `sent` is the model's record of the bytes handed to `Uart.write`, oldest first (log 24). -/
structure Uart where
  txe : Bool
  tc : Bool
  rxne : Bool
  rdr : Byte
  sent : List Byte
deriving DecidableEq, Repr

/-- The states of the default codec's receiver (43 R280). -/
inductive RxState
  | sof
  | idc
  | seq
  | len
  | pay
  | ck3
  | ck2
  | ck1
  | ck0
  | eof
deriving DecidableEq, Repr

/-- The default codec's receive state machine (43 R280). `pay` holds the `n` payload bytes stored so far. -/
structure Receiver where
  st : RxState
  seen : Fin 3
  idc : Byte
  seq : Byte
  length : Byte
  rem : Byte
  ck : U32
  pay : List Byte
  crc : U32
deriving DecidableEq, Repr

/-- A frame as the block hands it to the transport. -/
structure Frame where
  id : FrameId
  payload : List Byte
deriving DecidableEq, Repr

/-- The parser of a codec other than the default (log 20): its own state, as bytes, and the bytes received since
`Transport.init` or its last delivery, which R271 (b) and (c) speak of. -/
structure OtherParser where
  state : List Byte
  pending : List Byte
deriving DecidableEq, Repr

/-- The transport's state (R46): the default codec's parser, the parser of another codec (log 20), and for the OPEN
relation the unacknowledged REL frames and the sequence number expected next (R272, R283, log 18, 19). -/
structure Transport where
  rx : Receiver
  rxOther : OtherParser
  relQueue : List Frame
  relRxSeq : Byte
deriving DecidableEq, Repr

/-- The port object (R30): everything that one port instance owns. -/
structure Port where
  tx : TxBatch
  rx : Ring
  rxBusy : Bool
  ctxM : Context
  ctxI : Context
  stream : Stream
  uart : Uart
  transport : Transport
deriving DecidableEq, Repr

/-- The flash device (45 R330): the bytes of the sector that differ from `FLASH_ERASED`, in canonical form, and the
outcomes the environment has decided for the calls to come (log 12). -/
structure Flash where
  cells : List Host.Cell
  eraseScript : List Config.EraseOutcome
  programScript : List Bool
deriving DecidableEq, Repr

/-- The output driver (45 R339): the requests made, oldest first, and each channel's raw state byte. -/
structure Driver where
  requests : List (Byte × Byte)
  state : Vector Byte Config.nOut
deriving DecidableEq, Repr

/-- One thing the outside does at a step boundary (00_scope R13, 30_encoding R111; log 5). -/
inductive Event
  /-- The running context takes one step. -/
  | advance
  /-- Context `c` starts an entry or a port operation (R80, R111). -/
  | call (c : Ctx) (i : Instr)
  /-- The transport delivers a complete frame to `dispatch` in context `c` (R111 `host FRAME`). -/
  | frame (c : Ctx) (bytes : List Byte)
  /-- A byte appears in RDR and RXNE is set (R45). -/
  | uartRx (b : Byte)
  /-- The receive path of context `c` reads RDR, which clears RXNE, and starts `feed` with the byte (R45, R184,
  log 27). -/
  | rxEntry (c : Ctx)
  /-- The UART's flags and RDR take values of their own (U12, log 8). -/
  | uartFlags (txe tc rxne : Bool) (rdr : Byte)
  /-- TXE is set (R45). -/
  | uartTxe
  /-- TC is set (R45). -/
  | uartTc
  /-- `ms` milliseconds pass (R187, R338). -/
  | elapse (ms : Nat)
  /-- The environment's main loop refreshes the watchdog (R338). That it may do so at any step boundary, also while an
  entry runs, is the model's choice (DESIGN CHOICE, log 11). -/
  | wdtRefresh
  /-- The watchdog expires (R338, R442). -/
  | wdtExpire
  /-- A power-on reset (R442). That it may come at any step boundary is the model's choice (DESIGN CHOICE, log 33). -/
  | powerOn
  /-- The driver's channel `ch` takes the raw state `v` (R339). -/
  | driverState (ch : Fin Config.nOut) (v : Byte)
  /-- ADC input `k` samples `v` (R350). -/
  | adcSample (k : Fin Config.nAn) (v : U16)
  /-- Digital input `k` reads `v` (R350). -/
  | dinLevel (k : Fin Config.nDin) (v : Bool)
  /-- The executor's channels, in index order, become `table` (R350). -/
  | execTable (table : List (U16 × U32))
  /-- The OPEN reliability layer transmits its queued frame `k` with sequence byte `seq` (R272). -/
  | relTransmit (k : Nat) (seq : Byte)
  /-- The OPEN reliability layer's queued frame `k` is acknowledged (R14, R272). -/
  | relAck (k : Nat)
  /-- The port at place `k` of the others becomes the one that moves (R412). -/
  | selectPort (k : Nat)
deriving DecidableEq, Repr

/-- The machine: the parameters, the selected port and the others (R30, R412), the system-wide collaborators
(R42, R47, R48), the model fault (R43) and the model's bookkeeping (log 24). -/
structure State where
  params : Config.Params
  port : Port
  others : List Port
  /-- The context that executes the present step. -/
  ctx : Ctx
  /-- ConfigBlob: exactly the bytes `blob.buf[0..blob.len)` (R42, log 7). -/
  blob : List Byte
  flash : Flash
  driver : Driver
  /-- The executor's channels `{channel_id, value}` in index order (R350). -/
  channels : List (U16 × U32)
  /-- The rest of the executor's own state, for an instance of `Exec.loadBinary` that keeps any (R340, log 16). -/
  execStore : List Byte
  adc : Vector U16 Config.nAn
  din : Vector Bool Config.nDin
  /-- `now_ms` (R47). -/
  clock : U32
  /-- Milliseconds since the last watchdog refresh (R338). -/
  wdt : Nat
  fault : Option Fault
  /-- How many free values have been drawn. -/
  fresh : Nat
  schedule : List Event
deriving DecidableEq, Repr

/-! ### Named updates -/

/-- The context record `c` of a port. -/
def Port.context (p : Port) (c : Ctx) : Context :=
  match c with
  | .m => p.ctxM
  | .i => p.ctxI

/-- Replaces the context record `c`. -/
def Port.setContext (p : Port) (c : Ctx) (k : Context) : Port :=
  { p with
    ctxM := (match c with | .m => k | .i => p.ctxM)
    ctxI := (match c with | .m => p.ctxI | .i => k) }

namespace State

/-- The activation stack of the executing context. -/
def stack (s : State) : List Activation := (s.port.context s.ctx).stack
/-- The last result of the executing context. -/
def ret (s : State) : Returned := (s.port.context s.ctx).ret

def setStack (s : State) (l : List Activation) : State :=
  { s with port := s.port.setContext s.ctx { (s.port.context s.ctx) with stack := l } }
def setRet (s : State) (r : Returned) : State :=
  { s with port := s.port.setContext s.ctx { (s.port.context s.ctx) with ret := r } }
def setTx (s : State) (t : TxBatch) : State := { s with port := { s.port with tx := t } }
def setRx (s : State) (r : Ring) : State := { s with port := { s.port with rx := r } }
def setRxBusy (s : State) (b : Bool) : State := { s with port := { s.port with rxBusy := b } }
def setStream (s : State) (t : Stream) : State := { s with port := { s.port with stream := t } }
def setUart (s : State) (u : Uart) : State := { s with port := { s.port with uart := u } }
def setTransport (s : State) (t : Transport) : State := { s with port := { s.port with transport := t } }
def setCtx (s : State) (c : Ctx) : State := { s with ctx := c }
def setBlob (s : State) (b : List Byte) : State := { s with blob := b }
def setFlash (s : State) (f : Flash) : State := { s with flash := f }
/-- Writes what `Exec.loadBinary` may write (R340). -/
def setExec (s : State) (e : Config.ExecState) : State :=
  { s with blob := e.blob, execStore := e.store, channels := e.channels }
def setDriver (s : State) (d : Driver) : State := { s with driver := d }
def setWdt (s : State) (n : Nat) : State := { s with wdt := n }
def setFault (s : State) (k : Fault) : State := { s with fault := some k }
def setFresh (s : State) (n : Nat) : State := { s with fresh := n }
def setSchedule (s : State) (l : List Event) : State := { s with schedule := l }

end State

/-! ### Reset -/

/-- No batch (R441). -/
def TxBatch.reset : TxBatch :=
  { buf := [], inProgress := false, owner := none, rejectedM := false, rejectedI := false }

/-- An empty ring; its slots hold free bytes (R35, U11). `n` is the number of the reset, `k` the port's place. -/
def Ring.reset (p : Config.Params) (n k : Nat) : Ring :=
  { buf := (List.range p.rxCap).map (Config.ramByte n k), head := 0, tail := 0 }

/-- The stream register at reset (R441, D47). -/
def Stream.reset : Stream := { active := false, periodMs := 100, lastEmitTick := 0, counter := 0 }

/-- An idle context (R39). -/
def Context.reset : Context := { stack := [], ret := .nothing }

/-- The receiver after `Transport.init`: `st = SOF`, `seen = 0` (R280); the registers every frame writes first are 0
(DESIGN CHOICE, log 20). -/
def Receiver.reset : Receiver :=
  { st := .sof, seen := 0, idc := 0, seq := 0, length := 0, rem := 0, ck := 0, pay := [], crc := 0 }

/-- The parser state of a codec other than the default after `Transport.init`. -/
def Transport.initOther (p : Config.Params) : OtherParser :=
  match p.codec with
  | .min => { state := [], pending := [] }
  | .other n => { state := Config.codecInit n, pending := [] }

/-- The transport after `Transport.init`: no queued REL frame (R441). -/
def Transport.reset (p : Config.Params) : Transport :=
  { rx := Receiver.reset, rxOther := Transport.initOther p, relQueue := [], relRxSeq := 0 }

/-- The UART after a reset, before which it was handed the bytes `sent`: ready, and what it held is lost (R224; the
flags are the environment's: DESIGN CHOICE, log 8). -/
def Uart.reset (sent : List Byte) : Uart := { txe := true, tc := true, rxne := false, rdr := 0, sent := sent }

/-- Port `k` with every element at its reset value after reset number `n` (R441); `sent` is the UART's record. -/
def Port.reset (p : Config.Params) (n k : Nat) (sent : List Byte) : Port :=
  { tx := TxBatch.reset, rx := Ring.reset p n k, rxBusy := false, ctxM := Context.reset, ctxI := Context.reset,
    stream := Stream.reset, uart := Uart.reset sent, transport := Transport.reset p }

/-- The machine after a power-on with parameters `p`, an erased flash and idle collaborators: reset values applied, boot
run, entries enabled (R441, R443, R444). Boot's `Store.load` finds no record in an erased sector, so the blob is empty
(Laws: `systemReset_initial`). -/
def State.initial (p : Config.Params) : State :=
  { params := p
    port := Port.reset p 0 0 []
    others := (List.range (p.nPorts - 1)).map fun k => Port.reset p 0 (k + 1) []
    ctx := .m
    blob := []
    flash := { cells := [], eraseScript := [], programScript := [] }
    driver := { requests := [], state := Vector.replicate Config.nOut 0 }
    channels := []
    execStore := []
    adc := Vector.replicate Config.nAn 0
    din := Vector.replicate Config.nDin false
    clock := 0
    wdt := 0
    fault := none
    fresh := 0
    schedule := [] }

/-- The machine right after reset, with the OPEN parameters free (log 3). -/
def State.reset : State := State.initial Config.params

end Sys2Proof.Machine
end

