-- ==== Sys2Proof/Machine/Operands.lean ====
section
/-! DEFINITION. Field helpers (00_scope R11) and operand assembly (30_encoding R109). -/

namespace Sys2Proof.Machine

/-- `u16le(v)` (R11). -/
def u16le (v : U16) : List Byte := [v.extractLsb' 0 8, v.extractLsb' 8 8]

/-- `u32le(v)` (R11). -/
def u32le (v : U32) : List Byte :=
  [v.extractLsb' 0 8, v.extractLsb' 8 8, v.extractLsb' 16 8, v.extractLsb' 24 8]

/-- Byte `i` of a sequence (R10); every use is below the length. -/
def byteAt (l : List Byte) (i : Nat) : Byte := l.getD i 0

/-- `rd16le(s, i)` (R11). -/
def rd16le (l : List Byte) (i : Nat) : U16 :=
  (byteAt l i).zeroExtend 16 ||| ((byteAt l (i + 1)).zeroExtend 16 <<< 8)

/-- `rd32le(s, i)` (R11). -/
def rd32le (l : List Byte) (i : Nat) : U32 :=
  (rd16le l i).zeroExtend 32 ||| ((rd16le l (i + 2)).zeroExtend 32 <<< 16)

/-- StartStream's `rate_hz`, present only if the payload has two bytes (R106, R109). -/
def rateOperand (payload : List Byte) : Option U16 :=
  if 2 ≤ payload.length then some (rd16le payload 0) else none

/-- The operands of LoadBinary: `chunk_idx`, `total_chunks` and the data, or nothing when the payload is shorter than
its header (R106, R109). -/
structure Chunk where
  chunkIdx : U16
  totalChunks : U16
  bytes : List Byte
deriving DecidableEq, Repr

def chunkOperand (payload : List Byte) : Option Chunk :=
  if 4 ≤ payload.length then some ⟨rd16le payload 0, rd16le payload 2, payload.drop 4⟩ else none

/-- SetOutput's `channel` and `state`, raw bytes (R109), or nothing when the payload is shorter than two bytes. -/
def outputOperand : List Byte → Option (Byte × Byte)
  | ch :: st :: _ => some (ch, st)
  | _ => none

end Sys2Proof.Machine
end

