-- ==== Sys2Proof/Machine/Crc.lean ====
section
/-! DEFINITION. The CRC engine (40_crc): pure functions, and the four port operations that call them. The engine reads
no block state but the parameter record `CRC32_PARAMS` and writes none; a result goes to the caller. -/

namespace Sys2Proof.Machine

/-- One bit of CRC-16: shift left, and XOR the polynomial if bit 15 left (R141). -/
def crc16Bit (c : U16) : U16 := if c.getLsbD 15 then (c <<< 1) ^^^ 0x1021 else c <<< 1

/-- `crc16_step` (R141). -/
def crc16Step (c : U16) (b : Byte) : U16 :=
  Nat.repeat crc16Bit 8 (c ^^^ (b.zeroExtend 16 <<< 8))

/-- `crc16_update` (R143). -/
def crc16Update (c : U16) (bytes : List Byte) : U16 := bytes.foldl crc16Step c

/-- `crc16` (R142). -/
def crc16 (bytes : List Byte) : U16 := crc16Update 0xFFFF bytes

/-- One bit of a CRC-32 register: reflected sets shift right and XOR the reversed polynomial if bit 0 left (R151), the
others shift left and XOR the polynomial if bit 31 left. -/
def crc32Bit (q : Config.Crc32Params) (c : U32) : U32 :=
  if q.refIn then (if c.getLsbD 0 then (c >>> 1) ^^^ q.poly.reverse else c >>> 1)
  else (if c.getLsbD 31 then (c <<< 1) ^^^ q.poly else c <<< 1)

/-- `crc32_step` under the parameters `q` (R150, R151). -/
def crc32Step (q : Config.Crc32Params) (c : U32) (b : Byte) : U32 :=
  Nat.repeat (crc32Bit q) 8 (c ^^^ (if q.refIn then b.zeroExtend 32 else b.zeroExtend 32 <<< 24))

/-- `crc32_update` (R152). -/
def crc32Update (q : Config.Crc32Params) (c : U32) (bytes : List Byte) : U32 := bytes.foldl (crc32Step q) c

/-- `crc32_final` (R152): the final XOR, after a reversal where the output's reflection differs from the register's. -/
def crc32Final (q : Config.Crc32Params) (c : U32) : U32 :=
  (if q.refIn = q.refOut then c else c.reverse) ^^^ q.xorOut

/-- `crc32_init` (R152). A reflected register takes the initial value reversed, as it takes the polynomial (PRESUMED,
log 21). -/
def crc32Init (q : Config.Crc32Params) : U32 := if q.refIn then q.init.reverse else q.init

/-- `crc32` (R152). -/
def crc32 (q : Config.Crc32Params) (bytes : List Byte) : U32 := crc32Final q (crc32Update q (crc32Init q) bytes)

/-- crc16_step (R141). -/
def execCrc16Step (c : U16) (b : Byte) (s : State) : Host.Outcome State Fault Refusal :=
  .next (s.setRet (.crc16 (crc16Step c b)))

/-- crc16 (R142). -/
def execCrc16 (bytes : List Byte) (s : State) : Host.Outcome State Fault Refusal :=
  .next (s.setRet (.crc16 (crc16 bytes)))

/-- crc32_step (R151). -/
def execCrc32Step (c : U32) (b : Byte) (s : State) : Host.Outcome State Fault Refusal :=
  .next (s.setRet (.crc32 (crc32Step s.params.crc32 c b)))

/-- crc32 (R152). -/
def execCrc32 (bytes : List Byte) (s : State) : Host.Outcome State Fault Refusal :=
  .next (s.setRet (.crc32 (crc32 s.params.crc32 bytes)))

end Sys2Proof.Machine
end

