-- ==== Sys2Proof/Machine/Memory.lean ====
section
/-! DEFINITION. The flash sector as a list of (address, byte) cells in one canonical form: addresses strictly rising, no
cell equal to the erased byte `d`, which is what an unlisted address reads as (45 R330). -/

namespace Sys2Proof.Machine

/-- The byte at address `a`. -/
def Memory.read (d : Byte) : List Host.Cell → Nat → Byte
  | [], _ => d
  | (k, v) :: m, a => if k = a then v else Memory.read d m a

/-- Stores `b` at address `a` and keeps the canonical form. -/
def Memory.write (d : Byte) : List Host.Cell → Nat → Byte → List Host.Cell
  | [], a, b => if b = d then [] else [(a, b)]
  | (k, v) :: m, a, b =>
    if k < a then (k, v) :: Memory.write d m a b
    else if k = a then (if b = d then m else (a, b) :: m)
    else if b = d then (k, v) :: m
    else (a, b) :: (k, v) :: m

/-- The canonical form. -/
def Memory.wf (d : Byte) : List Host.Cell → Bool
  | [] => true
  | (k, v) :: m => decide (v ≠ d) && m.all (fun c => decide (k < c.1)) && Memory.wf d m

/-- `n` bytes from address `a` up. -/
def Memory.readBytes (d : Byte) (m : List Host.Cell) (a n : Nat) : List Byte :=
  (List.range n).map fun k => Memory.read d m (a + k)

/-- Stores the bytes from address `a` up. -/
def Memory.writeBytes (d : Byte) (m : List Host.Cell) (a : Nat) : List Byte → List Host.Cell
  | [] => m
  | b :: bs => Memory.writeBytes d (Memory.write d m a b) (a + 1) bs

/-- Erases the `n` bytes from address `a` up: they read as `d`, so no cell of the range stays. -/
def Memory.erase (m : List Host.Cell) (a n : Nat) : List Host.Cell :=
  m.filter fun c => decide (c.1 < a ∨ a + n ≤ c.1)

/-- Replaces each of the `n` bytes from address `a` up by `f` of its address and old value. -/
def Memory.scramble (d : Byte) (f : Nat → Byte → Byte) (m : List Host.Cell) (a : Nat) : Nat → List Host.Cell
  | 0 => m
  | n + 1 => Memory.scramble d f (Memory.write d m a (f a (Memory.read d m a))) (a + 1) n

end Sys2Proof.Machine
end

