-- ==== Sys2Proof/Machine/Flags.lean ====
section
/-! DEFINITION. The conditions the block computes: ring empty/full, the foreign-batch test, the space left, the readiness
of a context, the transport's reentrancy, the stream's due test. -/

namespace Sys2Proof.Machine

/-- "`head == tail` means empty" (R36). -/
def Ring.isEmpty (r : Ring) : Bool := r.head == r.tail

/-- The occupancy `(rx.head − rx.tail) mod RX_CAP` (R36), for indices below `cap`. -/
def Ring.count (cap : Nat) (r : Ring) : Nat := (r.head + cap - r.tail) % cap

/-- Full: `(rx.head + 1) mod RX_CAP == rx.tail` (R36). -/
def Ring.isFull (cap : Nat) (r : Ring) : Bool := (r.head + 1) % cap == r.tail

/-- The unread bytes, oldest first (R37). -/
def Ring.unread (cap : Nat) (r : Ring) : List Byte :=
  (List.range (r.count cap)).map fun k => byteAt r.buf ((r.tail + k) % cap)

/-- Whether context `c` got BUSY for the batch in flight (R34). -/
def TxBatch.rejected (t : TxBatch) (c : Ctx) : Bool :=
  match c with
  | .m => t.rejectedM
  | .i => t.rejectedI

/-- `tx.owner != c or c ∈ tx.rejected` (R173, R175). -/
def TxBatch.foreign (t : TxBatch) (c : Ctx) : Bool := !(t.owner == some c) || t.rejected c

/-- `space_remaining()` (R174): the whole capacity with no batch in flight. -/
def TxBatch.space (cap : Nat) (t : TxBatch) : Nat := if t.inProgress then cap - t.len else cap

/-- `i_active`: I's stack is non-empty (R40). -/
def Port.iActive (p : Port) : Bool := !p.ctxI.stack.isEmpty

/-- The context whose step comes next: I runs to completion before M continues (R81). -/
def Port.running (p : Port) : Ctx := if p.iActive then .i else .m

/-- Whether context `c` may start an operation: it is idle and does not preempt upwards (R40, R81). -/
def Port.mayStart (p : Port) (c : Ctx) : Bool :=
  match c with
  | .i => !p.iActive
  | .m => !p.iActive && p.ctxM.stack.isEmpty

/-- An activation inside `Transport.poll` or `Transport.housekeeping` (R285). -/
def Activation.inTransport : Activation → Bool
  | .poll _ => true
  | .housekeeping => true
  | .delivered => true
  | _ => false

/-- An activation inside which the OPEN reliability layer may transmit: a poll, housekeeping, or the send of a REL frame
(R272). -/
def Activation.relChance : Activation → Bool
  | .relSent => true
  | a => a.inTransport

/-- An activation that has a batch in flight (R33): its frame is partly appended, or on its way out. -/
def Activation.holdsBatch : Activation → Bool
  | .transmit (.appendBytes _) => true
  | .endSend (.txByte _) => true
  | .endSend .txTc => true
  | _ => false

/-- The other context. -/
def Ctx.other : Ctx → Ctx
  | .m => .i
  | .i => .m

/-- Another `Transport.poll` or `Transport.housekeeping` is active on the port besides the one on top of the executing
context's stack (R285). -/
def State.reentered (s : State) : Bool :=
  s.stack.tail.any Activation.inTransport || (s.port.context s.ctx.other).stack.any Activation.inTransport

/-- The emission condition: active, and `(now − last_emit_tick) mod 2^32 ≥ period_ms` (R310, R311). -/
def Stream.due (t : Stream) (now : U32) : Bool :=
  t.active && decide (t.periodMs.toNat ≤ (now - t.lastEmitTick).toNat)

end Sys2Proof.Machine
end

