-- ==== Sys2Proof/Machine/Ops.lean ====
section
/-! DEFINITION. The shared operations: activation stacks (R39), entry and return of a context (R407, R408), raising a
model fault (R403), the ring (R170, R180), the UART calls (R45) and the reply (R221). -/

namespace Sys2Proof.Machine

/-! ### Activation stacks -/

def Activation.isAwaiting : Activation → Bool
  | .awaiting _ => true
  | _ => false

namespace State

/-- Enters an operation. -/
def push (a : Activation) (s : State) : State := s.setStack (a :: s.stack)

/-- Moves the innermost operation to another point. -/
def replaceTop (a : Activation) (s : State) : State := s.setStack (a :: s.stack.tail)

/-- Takes the innermost activation off; its operation goes on under another one. -/
def popTop (s : State) : State := s.setStack s.stack.tail

/-- Operations that only waited for the one above them return with it. -/
def unwind (s : State) : State := s.setStack (s.stack.dropWhile Activation.isAwaiting)

/-- Leaves the innermost operation, and every operation that only waited for it (R408: when the stack becomes empty the
context is idle; nothing else is restored). -/
def leave (s : State) : State := s.setStack (s.stack.tail.dropWhile Activation.isAwaiting)

/-- `raise Fault(kind)` (R12, R403): the first fault is recorded and stays (R43). -/
def raise (k : Fault) (s : State) : State :=
  match s.fault with
  | none => s.setFault k
  | some _ => s

/-- The end of a step: a state with a recorded fault is a stop (R43: "no further step is taken"). -/
def settle (s : State) : Host.Outcome State Fault Refusal :=
  match s.fault with
  | none => .next s
  | some k => .fault k

/-- A context's entry (R80, R407): it saves nothing, the preempted context keeps its stack. -/
def enter (c : Ctx) (s : State) : State := s.setCtx c

end State

/-! ### The ring -/

/-- `ring_put` (R170): the ring after it, and whether the byte was STORED. A full ring drops the new byte (R182). -/
def Ring.put (cap : Nat) (b : Byte) (r : Ring) : Ring × Bool :=
  if r.isFull cap then (r, false)
  else ({ r with buf := r.buf.set r.head b, head := (r.head + 1) % cap }, true)

/-- `ring_get` (R180), for a ring that is not empty. -/
def Ring.get (cap : Nat) (r : Ring) : Byte × Ring :=
  (byteAt r.buf r.tail, { r with tail := (r.tail + 1) % cap })

/-- `ring_put` on the port's ring. -/
def State.ringPut (b : Byte) (s : State) : State := s.setRx (s.port.rx.put s.params.rxCap b).1

/-! ### The UART -/

/-- `if Uart.rxAvail(): ring_put(Uart.rxRead())` (R45, R176): the held byte is consumed and captured. -/
def State.rxCapture (s : State) : State :=
  if s.port.uart.rxne then
    (s.ringPut s.port.uart.rdr).setUart { s.port.uart with rxne := false }
  else s

/-- `Uart.write(b)` (R45): the byte is handed over; TXE and TC become false. -/
def State.uartWrite (b : Byte) (s : State) : State :=
  s.setUart { s.port.uart with txe := false, tc := false, sent := s.port.uart.sent ++ [b] }

/-! ### The reply -/

/-- `Transport.send(id, payload, mode)` (R272): an UNREL frame, and a REL frame under `REL_ONCE`, is transmitted once in
the unreliable layout; under the OPEN relation a REL frame is queued, and the layer transmits it when it chooses. -/
def State.transportSend (id : FrameId) (payload : List Byte) (mode : SendMode) (s : State) : State :=
  match mode, s.params.reliability with
  | .rel, .openRel =>
    (s.setTransport { s.port.transport with relQueue := s.port.transport.relQueue ++ [⟨id, payload⟩] }).push .relSent
  | _, _ => s.push (.transmit (.spaceTest ⟨id, none, payload⟩))

/-- `reply(id, payload, mode)` (R221). -/
def State.sendReply (id : FrameId) (payload : List Byte) (mode : SendMode) (s : State) : State :=
  (s.push (.awaiting .reply)).transportSend id payload mode

/-! ### Time -/

/-- `Wdt.refresh()` (R338). -/
def State.wdtRefresh (s : State) : State := s.setWdt 0

/-- `now_ms()` (R187). -/
def State.nowMs (s : State) : U32 := s.clock

end Sys2Proof.Machine
end

