-- ==== Sys2Proof/Machine/Flash.lean ====
section
/-! DEFINITION. The flash device (45 R330), the record's layout (R331) and `Store.load` (R334). -/

namespace Sys2Proof.Machine

/-- The byte of the flash at address `a`. -/
def State.flashRead (s : State) (a : Nat) : Byte := Memory.read s.params.flashErased s.flash.cells a

/-- `Flash.read(addr, n)` (R330). -/
def State.flashBytes (s : State) (a n : Nat) : List Byte :=
  Memory.readBytes s.params.flashErased s.flash.cells a n

/-- The environment's answer to the next erase: its script, or a free outcome (U18, log 12). -/
def State.nextErase (s : State) : Config.EraseOutcome :=
  match s.flash.eraseScript with
  | o :: _ => o
  | [] => Config.eraseOutcome s.fresh

/-- The environment's answer to the next program call (U18, log 12). -/
def State.nextProgram (s : State) : Bool :=
  match s.flash.programScript with
  | ok :: _ => ok
  | [] => Config.programOk s.fresh

/-- `Flash.eraseSector(FLASH_SECTOR)` (R330): done, every byte of the sector reads as `FLASH_ERASED`; failed or cut short
by the watchdog, each byte is free (R338, U7, C8, log 14). -/
def State.eraseSector (s : State) : State × Config.EraseOutcome :=
  let o := s.nextErase
  let p := s.params
  let cells := match o with
    | .done => Memory.erase s.flash.cells p.sectorBase p.sectorSize
    | .failed => Memory.scramble p.flashErased (Config.flashByte s.fresh) s.flash.cells p.sectorBase p.sectorSize
    | .expired => Memory.scramble p.flashErased (Config.flashByte s.fresh) s.flash.cells p.sectorBase p.sectorSize
  ((s.setFlash { s.flash with cells := cells, eraseScript := s.flash.eraseScript.tail }).setFresh (s.fresh + 1), o)

/-- `Flash.programWord(addr, w)` (R330): a failed word holds free bytes (U6, log 14). -/
def State.programWord (a : Nat) (w : List Byte) (s : State) : State × Bool :=
  let ok := s.nextProgram
  let d := s.params.flashErased
  let cells :=
    if ok then Memory.writeBytes d s.flash.cells a w
    else Memory.scramble d (Config.flashByte s.fresh) s.flash.cells a w.length
  ((s.setFlash { s.flash with cells := cells, programScript := s.flash.programScript.tail }).setFresh (s.fresh + 1), ok)

/-- The program loop of R333: one word after another, up to the first that fails. -/
def State.programWords (a : Nat) : List Byte → State → State × Bool
  | b0 :: b1 :: b2 :: b3 :: rest, s =>
    match s.programWord a [b0, b1, b2, b3] with
    | (s', true) => State.programWords (a + 4) rest s'
    | (s', false) => (s', false)
  | _, s => (s, true)

/-- The magic value "CONF" (R331). -/
def recordMagic : U32 := 0x434F4E46

/-- The record's 8 header bytes (R331, R72). -/
def recordHeader (blob : List Byte) : List Byte :=
  u32le recordMagic ++ u16le (BitVec.ofNat 16 blob.length) ++ u16le (crc16 blob)

/-- How many padding bytes complete the last word (R331). -/
def padCount (size : Nat) : Nat := (4 - size % 4) % 4

/-- The whole record: header, data, padding (R331). -/
def recordBytes (pad : Byte) (blob : List Byte) : List Byte :=
  recordHeader blob ++ blob ++ List.replicate (padCount blob.length) pad

/-- The blob that a record in flash stands for, or nothing when it is not to be trusted (R334). -/
def State.storedBlob (s : State) : Option (List Byte) :=
  let h := s.flashBytes s.params.recordAddr 8
  let size := (rd16le h 4).toNat
  if rd32le h 0 ≠ recordMagic ∨ size = 0 ∨ Config.blobCap < size then none
  else
    let d := s.flashBytes (s.params.recordAddr + 8) size
    if crc16 d = rd16le h 6 then some d else none

/-- `Store.load()` (R334): true for PRESENT. -/
def State.storeLoad (s : State) : State × Bool :=
  match s.storedBlob with
  | some d => (s.setBlob d, true)
  | none => (s.setBlob [], false)

end Sys2Proof.Machine
end

