-- ==== Sys2Proof/Machine/Reset.lean ====
section
/-! DEFINITION. The system reset and boot (70 R440 to R443, 45 R342). -/

namespace Sys2Proof.Machine

/-- The ports of a list at their reset values, the first of them port `k` (R441, R412). -/
def Port.resetAll (p : Config.Params) (n : Nat) : Nat → List Port → List Port
  | _, [] => []
  | k, q :: l => Port.reset p n k q.uart.sent :: Port.resetAll p n (k + 1) l

/-- The reset values on the selected port and on every other port (R441, R412): both contexts' stacks are abandoned, the
transport is initialised, what the UART held is lost (R224). -/
def State.resetPorts (s : State) : State :=
  { s with
    port := Port.reset s.params (s.fresh + 1) 0 s.port.uart.sent
    others := Port.resetAll s.params (s.fresh + 1) 1 s.others
    ctx := .m
    fresh := s.fresh + 1 }

/-- A system reset from any of the three causes, which have the same effect (R440, R442): the reset values, then boot,
which loads the record in one atomic step (R443). The flash, the clock, the collaborators, the fault and the schedule
stay; the watchdog starts anew (log 11). -/
def systemReset (s : State) : State := (s.resetPorts.setWdt 0).storeLoad.1

end Sys2Proof.Machine
end

