-- ==== Sys2Proof/Machine/Store.lean ====
section
/-! DEFINITION. `Store.save` and `Store.clear` (45 R332, R333, R335), and the executor's LoadBinary (R340, R341). -/

namespace Sys2Proof.Machine

/-- An erase between two watchdog refreshes (R333, R335). `none`: the watchdog expired inside it and the system has
reset (R338). -/
def State.guardedErase (s : State) : State × Option Bool :=
  match s.wdtRefresh.eraseSector with
  | (s', .done) => (s'.wdtRefresh, some true)
  | (s', .failed) => (s'.wdtRefresh, some false)
  | (s', .expired) => (systemReset s', none)

/-- `Store.save(blob)` (R332, R333): whether the record was written; `none` when the system has reset inside it. -/
def State.storeSave (s : State) : State × Option Bool :=
  if s.blob.length = 0 ∨ Config.blobCap < s.blob.length then (s, some false)
  else
    match s.guardedErase with
    | (s', some true) =>
      match State.programWords s'.params.recordAddr (recordBytes s'.params.flashPad s'.blob) s' with
      | (t, ok) => (t, some ok)
    | r => r

/-- `Store.clear()` (R335): the erase's result is ignored; `none` when the system has reset inside it. -/
def State.storeClear (s : State) : State × Option Bool := (s.setBlob []).guardedErase

/-- The blob of the default LoadBinary before its data is written: empty for chunk 0, and with bytes below the chunk's
base that no chunk wrote free (R341, log 15). `n` is the draw. -/
def chunkBase (n : Nat) (c : Chunk) (blob : List Byte) : List Byte :=
  let start := if c.chunkIdx = 0 then [] else blob
  let base := min (Config.chunkDataMax * c.chunkIdx.toNat) Config.blobCap
  start ++ (List.range' start.length (base - start.length)).map (Config.gapByte n)

/-- The blob after the default LoadBinary (R341): the data at `251·chunk_idx`, what lies beyond the capacity dropped. -/
def loadChunk (n : Nat) (c : Chunk) (blob : List Byte) : List Byte :=
  let l := chunkBase n c blob
  let base := min (Config.chunkDataMax * c.chunkIdx.toNat) Config.blobCap
  let bytes := c.bytes.take (Config.blobCap - base)
  l.take base ++ bytes ++ l.drop (base + bytes.length)

/-- Whether the default LoadBinary draws free bytes: the chunk's base lies above the blob it extends (R341). -/
def chunkHasGap (c : Chunk) (blob : List Byte) : Bool :=
  decide ((if c.chunkIdx = 0 then [] else blob).length < min (Config.chunkDataMax * c.chunkIdx.toNat) Config.blobCap)

/-- `Exec.loadBinary(payload)`, default instance (R341): the state after it, and `channels_loaded`. -/
def State.loadDefault (c : Chunk) (s : State) : State × U16 :=
  let b := loadChunk s.fresh c s.blob
  let n := if chunkHasGap c s.blob then s.fresh + 1 else s.fresh
  ((s.setBlob b).setFresh n, Config.execChannels b c.chunkIdx c.totalChunks)

/-- What another instance of `Exec.loadBinary` makes of a payload (R340, log 16). Of the free function `Config.execOther`
only what meets (b) and (c) is used: the blob is cut at 2048 bytes, and a result that would change once more if the
payload were applied again is not taken. Every instance that meets (b) and (c) is such a function. -/
def loadOther (n : Nat) (payload : List Byte) (e : Config.ExecState) : Config.ExecState :=
  let once (x : Config.ExecState) : Config.ExecState :=
    { (Config.execOther n payload x).1 with blob := (Config.execOther n payload x).1.blob.take Config.blobCap }
  if once (once e) = once e then once e else e

/-- What `Exec.loadBinary` may read and write (R340). -/
def State.execState (s : State) : Config.ExecState := { blob := s.blob, store := s.execStore, channels := s.channels }

/-- `Exec.loadBinary(payload)`, whose operands are `c`, in the instance the machine has (R340): one atomic step; the state
after it, and `channels_loaded`. -/
def State.execLoad (payload : List Byte) (c : Chunk) (s : State) : State × U16 :=
  match s.params.exec with
  | .blobStore => s.loadDefault c
  | .other n => (s.setExec (loadOther n payload s.execState), (Config.execOther n payload s.execState).2)

end Sys2Proof.Machine
end

