-- ==== Sys2Proof/Machine/Handlers.lean ====
section
/-! DEFINITION. The command dispatcher (42_dispatcher): every handler, the unrecognized path, and the port operations
`dispatch` and `reply`. A handler's own effect and its collaborator call are one step; its reply follows through the
transport (log 6). -/

namespace Sys2Proof.Machine

namespace State

/-- `FRAME Nack [id reason] REL` (R108, R401). -/
def nackReply (id reason : Byte) (s : State) : State := s.sendReply 0x3F [id, reason] .rel

/-- The unrecognized path (R104, R234). -/
def unknownReply (id : FrameId) (s : State) : State := s.nackReply (idByte id) 0x01

/-! ### GetConfig's chunks (R225) -/

/-- The number of ConfigData chunks of a blob that is not empty: `ceil(blob.len / 251)`. -/
def chunkTotal (blob : List Byte) : Nat := (blob.length + (Config.chunkDataMax - 1)) / Config.chunkDataMax

/-- The blob bytes of chunk `k`. -/
def chunkPart (blob : List Byte) (k : Nat) : List Byte :=
  (blob.drop (Config.chunkDataMax * k)).take Config.chunkDataMax

/-- The payload of chunk `k` of `total`. -/
def chunkPayload (blob : List Byte) (k total : Nat) : List Byte :=
  u16le (BitVec.ofNat 16 k) ++ u16le (BitVec.ofNat 16 total) ++ chunkPart blob k

/-- The loop from chunk `k` on: the chunk's frame is sent, the rest of the loop stays below it. -/
def sendChunks (k total : Nat) (s : State) : State :=
  let t := if k + 1 < total then s.push (.getConfig (k + 1) total) else s
  t.sendReply 0x11 (chunkPayload s.blob k total) .unrel

/-! ### The handlers -/

/-- Ping (R223). -/
def hPing (s : State) : State := s.sendReply 0x02 [] .unrel

/-- Reset (R224): the ACK first, UNREL, then `Sys.reset()`. -/
def hReset (s : State) : State := (s.push .sysReset).sendReply 0x3E [idByte s.params.idReset] .unrel

/-- GetConfig (R225). -/
def hGetConfig (s : State) : State :=
  if s.blob.length = 0 then s.sendReply 0x11 [0x00, 0x00, 0x01, 0x00, 0x00, 0x00] .unrel
  else s.sendChunks 0 (chunkTotal s.blob)

/-- SaveConfig (R228): no reply when the system has reset inside the erase (R338). -/
def hSaveConfig (s : State) : State :=
  match s.storeSave with
  | (s', some ok) => s'.sendReply 0x15 [if ok then 0x01 else 0x00] .rel
  | (s', none) => s'

/-- ClearConfig (R229): always `[01]` (D37), unless the system has reset inside the erase. -/
def hClearConfig (s : State) : State :=
  match s.storeClear with
  | (s', some _) => s'.sendReply 0x17 [0x01] .rel
  | (s', none) => s'

/-- LoadBinary (R226, R227). -/
def hLoadBinary (payload : List Byte) (s : State) : State :=
  match chunkOperand payload with
  | none => s.nackReply 0x18 0x02
  | some c =>
    match s.execLoad payload c with
    | (s', n) => s'.sendReply 0x19 ([0x01, 0x00] ++ u16le n) .unrel

/-- The rate StartStream uses: absent or 0 means the default, above the maximum means the maximum (R230). -/
def rateUsed (r : Option U16) : U16 :=
  let v := r.getD 0
  let v := if v = 0 then Config.rateDefault else v
  if Config.rateMax < v then Config.rateMax else v

/-- `1000 div r` (R230). -/
def periodOf (r : U16) : U32 := 1000 / r.zeroExtend 32

/-- StartStream (R230): the counter is not written (D26). -/
def hStartStream (payload : List Byte) (s : State) : State :=
  (s.setStream { s.port.stream with
      periodMs := periodOf (rateUsed (rateOperand payload)), active := true, lastEmitTick := s.nowMs }).sendReply
    0x3E [0x20] .rel

/-- StopStream (R231). -/
def hStopStream (s : State) : State :=
  (s.setStream { s.port.stream with active := false }).sendReply 0x3E [0x21] .rel

/-- `Driver.setOutput(ch, st)` (R339): the request is made; what the driver makes of it, on the channel it names, is free
(log 17). -/
def setOutput (ch st : Byte) (s : State) : State :=
  (s.setDriver {
      requests := s.driver.requests ++ [(ch, st)]
      state := Vector.ofFn fun (k : Fin Config.nOut) =>
        if k.val = ch.toNat then Config.driverResponse s.fresh ch st (s.driver.state[k]) else s.driver.state[k] }).setFresh
    (s.fresh + 1)

/-- SetOutput (R232). -/
def hSetOutput (payload : List Byte) (s : State) : State :=
  match outputOperand payload with
  | none => s.nackReply 0x28 0x02
  | some (ch, st) => (s.setOutput ch st).sendReply 0x29 [ch, st] .rel

/-- The ten Capabilities bytes (R233). -/
def capabilitiesPayload (p : Config.Params) : List Byte :=
  [p.capDeviceType, p.capFwMajor, p.capFwMinor, p.capFwPatch,
   BitVec.ofNat 8 Config.nOut, BitVec.ofNat 8 Config.nAn, BitVec.ofNat 8 Config.nDin,
   p.capHbridgeCount, p.capCanCount, 0x00]

/-- GetCapabilities (R233). -/
def hGetCapabilities (s : State) : State := s.sendReply 0x31 (capabilitiesPayload s.params) .rel

/-- The case of R220: the handler of an id. Every id without a request handler is unrecognized (R104). -/
def handle (id : FrameId) (payload : List Byte) (s : State) : State :=
  if id = 0x01 then s.hPing
  else if id = s.params.idReset then s.hReset
  else if id = 0x10 then s.hGetConfig
  else if id = 0x18 then s.hLoadBinary payload
  else if id = 0x14 then s.hSaveConfig
  else if id = 0x16 then s.hClearConfig
  else if id = 0x20 then s.hStartStream payload
  else if id = 0x21 then s.hStopStream
  else if id = 0x28 then s.hSetOutput payload
  else if id = 0x30 then s.hGetCapabilities
  else s.unknownReply id

end State

/-! ### The meanings -/

/-- Ping (R223); the payload is ignored (D54). -/
def execPing (_payload : List Byte) (s : State) : Host.Outcome State Fault Refusal := .next s.hPing
/-- Reset (R224). -/
def execReset (_payload : List Byte) (s : State) : Host.Outcome State Fault Refusal := .next s.hReset
/-- GetConfig (R225). -/
def execGetConfig (_payload : List Byte) (s : State) : Host.Outcome State Fault Refusal := .next s.hGetConfig
/-- SaveConfig (R228). -/
def execSaveConfig (_payload : List Byte) (s : State) : Host.Outcome State Fault Refusal := .next s.hSaveConfig
/-- ClearConfig (R229). -/
def execClearConfig (_payload : List Byte) (s : State) : Host.Outcome State Fault Refusal := .next s.hClearConfig
/-- LoadBinary (R226). -/
def execLoadBinary (payload : List Byte) (s : State) : Host.Outcome State Fault Refusal := .next (s.hLoadBinary payload)
/-- StartStream (R230). -/
def execStartStream (payload : List Byte) (s : State) : Host.Outcome State Fault Refusal := .next (s.hStartStream payload)
/-- StopStream (R231). -/
def execStopStream (_payload : List Byte) (s : State) : Host.Outcome State Fault Refusal := .next s.hStopStream
/-- SetOutput (R232). -/
def execSetOutput (payload : List Byte) (s : State) : Host.Outcome State Fault Refusal := .next (s.hSetOutput payload)
/-- GetCapabilities (R233). -/
def execGetCapabilities (_payload : List Byte) (s : State) : Host.Outcome State Fault Refusal := .next s.hGetCapabilities

/-- The reserved id 0x12 (R103). -/
def execLoadConfigReserved (_payload : List Byte) (s : State) : Host.Outcome State Fault Refusal := .next (s.unknownReply 0x12)
/-- The reserved id 0x13 (R103). -/
def execConfigAckReserved (_payload : List Byte) (s : State) : Host.Outcome State Fault Refusal := .next (s.unknownReply 0x13)
/-- Any other unrecognized id (R234). -/
def execUnrecognized (id : FrameId) (_payload : List Byte) (s : State) : Host.Outcome State Fault Refusal := .next (s.unknownReply id)

/-- The reply id 0x02 received (R104, R234). -/
def execPong (_payload : List Byte) (s : State) : Host.Outcome State Fault Refusal := .next (s.unknownReply 0x02)
/-- The reply id 0x11 received (R104, R234). -/
def execConfigData (_payload : List Byte) (s : State) : Host.Outcome State Fault Refusal := .next (s.unknownReply 0x11)
/-- The reply id 0x15 received (R104, R234). -/
def execFlashAck (_payload : List Byte) (s : State) : Host.Outcome State Fault Refusal := .next (s.unknownReply 0x15)
/-- The reply id 0x17 received (R104, R234). -/
def execClearConfigAck (_payload : List Byte) (s : State) : Host.Outcome State Fault Refusal := .next (s.unknownReply 0x17)
/-- The reply id 0x19 received (R104, R234). -/
def execBinaryAck (_payload : List Byte) (s : State) : Host.Outcome State Fault Refusal := .next (s.unknownReply 0x19)
/-- The push id 0x22 received (R104, R234). -/
def execData (_payload : List Byte) (s : State) : Host.Outcome State Fault Refusal := .next (s.unknownReply 0x22)
/-- The reply id 0x29 received (R104, R234). -/
def execOutputAck (_payload : List Byte) (s : State) : Host.Outcome State Fault Refusal := .next (s.unknownReply 0x29)
/-- The reply id 0x31 received (R104, R234). -/
def execCapabilities (_payload : List Byte) (s : State) : Host.Outcome State Fault Refusal := .next (s.unknownReply 0x31)
/-- The reply id 0x3E received (R104, R234). -/
def execAck (_payload : List Byte) (s : State) : Host.Outcome State Fault Refusal := .next (s.unknownReply 0x3E)
/-- The reply id 0x3F received (R104, R234). -/
def execNack (_payload : List Byte) (s : State) : Host.Outcome State Fault Refusal := .next (s.unknownReply 0x3F)

/-- dispatch (R220): the handler of the id runs, `dispatch` waiting below it. -/
def execDispatch (id : FrameId) (payload : List Byte) (s : State) : Host.Outcome State Fault Refusal :=
  .next ((s.push (.awaiting .dispatch)).handle id payload)

/-- reply (R221). -/
def execReply (id : FrameId) (payload : List Byte) (mode : SendMode) (s : State) : Host.Outcome State Fault Refusal :=
  .next (s.sendReply id payload mode)

end Sys2Proof.Machine
end

