-- ==== Sys2Proof/Machine/Telemetry.lean ====
section
/-! DEFINITION. `Telemetry.build` (45 R350 to R354). -/

namespace Sys2Proof.Machine

/-- The digital inputs as a bitmask, bit `i` for input `i` (R350). -/
def dinMask (l : List Bool) : Byte :=
  l.foldr (fun b acc => (acc <<< 1) ||| (if b then 1 else 0)) 0

/-- One entry `{channel_id:u16le}{value:u32le}` (R350). -/
def entryBytes (e : U16 × U32) : List Byte := u16le e.1 ++ u32le e.2

/-- Entries are appended only while the running offset plus 6 stays within the 200-byte cap (R352). -/
def entriesFrom (offset : Nat) : List (U16 × U32) → List Byte
  | [] => []
  | e :: es =>
    if offset + Config.telemetryEntry ≤ Config.telemetryCap then
      entryBytes e ++ entriesFrom (offset + Config.telemetryEntry) es
    else []

/-- `V = Exec.channelCount() mod 2^16` (R350, D56). -/
def State.channelCount (s : State) : U16 := BitVec.ofNat 16 s.channels.length

/-- The fixed portion, 106 bytes (R350, R351). -/
def State.snapshotFixed (k now : U32) (s : State) : List Byte :=
  u32le k ++ u32le now ++ s.driver.state.toList ++ s.adc.toList.flatMap u16le ++ [dinMask s.din.toList]
    ++ u32le (now / 1000) ++ List.replicate 8 0 ++ u16le s.channelCount ++ [0] ++ List.replicate 10 0
    ++ u16le s.channelCount

/-- The snapshot with frame counter `k` and timestamp `now` (R350): the fixed portion and the first `V` channels within
the cap. -/
def State.snapshot (k now : U32) (s : State) : List Byte :=
  s.snapshotFixed k now ++ entriesFrom 106 (s.channels.take s.channelCount.toNat)

end Sys2Proof.Machine
end

