-- ==== Sys2Proof/Machine/Tick.lean ====
section
/-! DEFINITION. The update tick (44 R310 to R316). -/

namespace Sys2Proof.Machine

namespace State

/-- `tick()`, first step (R310): skipped whole while the guard is held (D55), else the guard is taken and
`Transport.housekeeping()` entered. -/
def tickEntry (s : State) : State :=
  if s.port.rxBusy then s.setRet .skipped
  else (((s.setRxBusy true).setRet .nothing).push (.tick .decide)).push .housekeeping

/-- The decision step (R310, R311, R314): when due, `last_emit_tick` becomes `now` and the counter advances; the snapshot
will carry the value before the increment. -/
def stepDecide (s : State) : State :=
  let now := s.nowMs
  let t := s.port.stream
  if t.due now then
    (s.setStream { t with lastEmitTick := now, counter := t.counter + 1 }).replaceTop (.tick (.emit t.counter now))
  else s.replaceTop (.tick .drain)

/-- The emission (R310, R313): the snapshot is built and sent UNREL as the payload of 0x22. `Telemetry.build` reads every
output state, sample, digital input and channel in one step, the one that enters `Transport.send` (DESIGN CHOICE,
log 32). -/
def stepEmit (k now : U32) (s : State) : State :=
  (s.replaceTop (.tick .drain)).transportSend 0x22 (s.snapshot k now) .unrel

end State

/-- tick (R310). -/
def execTick (s : State) : Host.Outcome State Fault Refusal := .next s.tickEntry

end Sys2Proof.Machine
end

