-- ==== Sys2Proof/Machine/Arbiter.lean ====
section
/-! DEFINITION. The byte-level TX/RX arbiter (41_arbiter): its operations as steps on the state, and the meaning of each
as a port operation. -/

namespace Sys2Proof.Machine

namespace State

/-! ### The batch -/

/-- `begin_send` (R171): the state after it, and OK or BUSY. -/
def beginBatch (s : State) : State × Bool :=
  let t := s.port.tx
  if t.inProgress then
    (s.setTx { t with
        rejectedM := (match s.ctx with | .m => true | .i => t.rejectedM)
        rejectedI := (match s.ctx with | .m => t.rejectedI | .i => true) }, false)
  else (s.setTx { t with buf := [], inProgress := true, owner := some s.ctx }, true)

/-- `append_byte` (R173): ignored without a batch, a fault for a foreign one, dropped when the batch is full. -/
def appendToBatch (b : Byte) (s : State) : State :=
  let t := s.port.tx
  if !t.inProgress then s
  else if t.foreign s.ctx then s.raise .txForeignBatch
  else if t.len = s.params.txCap then s
  else s.setTx { t with buf := t.buf ++ [b] }

/-! ### Transmitting (R175 to R177) -/

/-- The end of the transmit phase (R176): the batch is over, and the guard is taken in the same step if it is free. The
flag says whether it was. -/
def finishBatch (s : State) : State × Bool :=
  let t := s.setTx { s.port.tx with inProgress := false, owner := none, rejectedM := false, rejectedI := false }
  if s.port.rxBusy then (t, false) else (t.setRxBusy true, true)

/-- One wait iteration of phase TX_BYTE(i), whose activation is on top (R176): the receiver is polled first (D5); with TXE
the byte is written, and the next loop's first iteration, which finds RXNE, TXE and TC false, ends the step (log 25). -/
def stepTxByte (i : Nat) (s : State) : State :=
  let s1 := s.rxCapture
  if s1.port.uart.txe then
    (s1.uartWrite (byteAt s1.port.tx.buf i)).replaceTop
      (.endSend (if i + 1 < s1.port.tx.len then .txByte (i + 1) else .txTc))
  else s1

/-- One wait iteration of phase TX_TC (R176), and what follows it in the same step once TC is seen: the drain phase if
the guard was free, else the return (R177). -/
def stepTxTc (s : State) : State :=
  let s1 := s.rxCapture
  if s1.port.uart.tc then
    match s1.finishBatch with
    | (s2, true) => s2.replaceTop (.endSend .drain)
    | (s2, false) => s2.leave
  else s1

/-- The first step of `end_send` (R175, R176). It enters the operation if anything is left to do after it. -/
def endSendEntry (s : State) : State :=
  let t := s.port.tx
  if !t.inProgress then s
  else if t.foreign s.ctx then s.raise .txForeignBatch
  else if t.len = 0 then
    match s.finishBatch with
    | (s1, true) => s1.push (.endSend .drain)
    | (s1, false) => s1
  else (s.push (.endSend (.txByte 0))).stepTxByte 0

/-! ### Receiving (R185, R186) -/

/-- One step of the drain loop, whose activation is on top (R186): the empty test and the release are one step; else one
byte is taken and `Transport.poll` entered with it. -/
def stepDrain (s : State) : State :=
  if s.port.rx.isEmpty then (s.setRxBusy false).leave
  else
    match s.port.rx.get s.params.rxCap with
    | (b, r) => (s.setRx r).push (.poll b)

/-- `feed(b)`, first step (R185): deferred while a batch is in progress or the guard is held, else the guard is taken and
`Transport.poll([b])` entered. -/
def feedEntry (b : Byte) (s : State) : State :=
  if s.port.tx.inProgress || s.port.rxBusy then s.ringPut b
  else ((s.setRxBusy true).push .feed).push (.poll b)

end State

/-! ### The port operations -/

/-- ring_put (R170). -/
def execRingPut (b : Byte) (s : State) : Host.Outcome State Fault Refusal :=
  .next ((s.ringPut b).setRet (.put (s.port.rx.put s.params.rxCap b).2))

/-- ring_get (R180). On an empty ring the call is impossible under R186: refused by name (log 23). -/
def execRingGet (s : State) : Host.Outcome State Fault Refusal :=
  if s.port.rx.isEmpty then .refused .ringGetOnEmpty
  else
    match s.port.rx.get s.params.rxCap with
    | (b, r) => .next ((s.setRx r).setRet (.byte b))

/-- begin_send (R171). -/
def execBeginSend (s : State) : Host.Outcome State Fault Refusal :=
  match s.beginBatch with
  | (s', ok) => .next (s'.setRet (.begun ok))

/-- append_byte (R173). -/
def execAppendByte (b : Byte) (s : State) : Host.Outcome State Fault Refusal :=
  (s.appendToBatch b).settle

/-- end_send (R175 to R177). -/
def execEndSend (s : State) : Host.Outcome State Fault Refusal :=
  s.endSendEntry.settle

/-- space_remaining (R174). -/
def execSpaceRemaining (s : State) : Host.Outcome State Fault Refusal :=
  .next (s.setRet (.space (s.port.tx.space s.params.txCap)))

/-- now_ms (R187). -/
def execNowMs (s : State) : Host.Outcome State Fault Refusal :=
  .next (s.setRet (.time s.nowMs))

/-- feed (R184, R185). -/
def execFeed (b : Byte) (s : State) : Host.Outcome State Fault Refusal :=
  .next (s.feedEntry b)

/-- drain_and_release (R186): the operation is entered and its loop's first step taken. -/
def execDrainAndRelease (s : State) : Host.Outcome State Fault Refusal :=
  .next (s.push .drain).stepDrain

end Sys2Proof.Machine
end

