-- ==== Sys2Proof/Machine/Codec.lean ====
section
/-! DEFINITION. The codec interface (43 Part A): `FrameCodec` is what R271 asks of an instance of `FRAME_CODEC`, and
`otherCodec` stands for every instance but the default one (log 20), which is Machine/MinCodec.lean. -/

namespace Sys2Proof.Machine

/-- A frame as the parser hands it on: `seq` is the sequence byte of a frame that belongs to the reliability layer
(R283). -/
structure Delivery where
  id : FrameId
  seq : Option Byte
  payload : List Byte
deriving DecidableEq, Repr

/-- A codec whose parser state is a `P` (R270, R271). Its proof fields are the obligations of R271 that are the codec's
own; (d), (e) and (f) hold of every instance, because it reaches the block only through Machine/Transport.lean. -/
structure FrameCodec (P : Type) where
  /-- The parser state after `Transport.init`. -/
  init : P
  /-- The parser's reaction to one received byte. -/
  receive : Config.Crc32Params → P → Byte → P × Option Delivery
  /-- The parser state once a delivered frame has been handled. -/
  delivered : P → P
  /-- The wire bytes of a frame. -/
  wire : Config.Crc32Params → TxFrame → List Byte
  /-- The bytes beyond the payload that the space test counts. -/
  overhead : Nat
  /-- The integrity check: these wire bytes, one whole reception of a frame, pass it and carry this frame. -/
  passes : Config.Crc32Params → List Byte → Delivery → Prop
  /-- What the parser's states have in common. -/
  ok : P → Prop
  init_ok : ok init
  receive_ok : ∀ q s b, ok s → ok (receive q s b).1
  delivered_ok : ∀ s, ok s → ok (delivered s)
  /-- R271 (a): ids are 6 bits wide by their type, and a payload has at most 255 bytes. -/
  payload_le : ∀ q s b d, ok s → (receive q s b).2 = some d → d.payload.length ≤ Config.maxPayload
  /-- The parser may be in this state after it received these bytes since `Transport.init` or since its last delivery. -/
  tracks : Config.Crc32Params → P → List Byte → Prop
  init_tracks : ∀ q, tracks q init []
  receive_tracks : ∀ q s l b, tracks q s l → (receive q s b).2 = none → tracks q (receive q s b).1 (l ++ [b])
  /-- R271 (b): no byte of a delivered reception counts for a later one. -/
  delivered_tracks : ∀ q s l b d, tracks q s l → (receive q s b).2 = some d →
    tracks q (delivered (receive q s b).1) []
  /-- R271 (b), (c): a delivery is a reception on the wire that the byte completes and that passes the integrity check. -/
  delivery_passes : ∀ q s l b d, tracks q s l → (receive q s b).2 = some d →
    ∃ noise w, l = noise ++ w ∧ passes q (w ++ [b]) d

/-! ### Every other codec -/

/-- Whether the frame that a codec's integrity check gives has a payload that R271 (a) admits, as a delivery. -/
def admitted (f : FrameId × Option Byte × List Byte) : Option Delivery :=
  if f.2.2.length ≤ Config.maxPayload then some ⟨f.1, f.2.1, f.2.2⟩ else none

/-- The frame that codec `n` delivers on a byte which completes the reception `w`: the one its integrity check gives. -/
def otherCheck (n : Nat) (q : Config.Crc32Params) (w : List Byte) : Option Delivery :=
  (Config.codecCheck n q w).bind admitted

/-- The parser of codec `n` takes a byte. Its own state moves on, and it may claim that the byte completes a reception that
began after the first `k` bytes since the last delivery. The bytes of the reception go through the integrity check. -/
def otherReceive (n : Nat) (q : Config.Crc32Params) (s : OtherParser) (b : Byte) : OtherParser × Option Delivery :=
  let r := Config.codecReceive n q s.state b
  ({ state := r.1, pending := s.pending ++ [b] }, r.2.bind fun k => otherCheck n q (s.pending.drop k ++ [b]))

/-- Codec number `n` other than the default (log 20): its functions are opaque, and R271 is all that is known of it. -/
def otherCodec (n : Nat) : FrameCodec OtherParser where
  init := { state := Config.codecInit n, pending := [] }
  receive := otherReceive n
  delivered := fun s => { state := Config.codecDelivered n s.state, pending := [] }
  wire := fun q f => Config.codecWire n q f.id f.seq f.payload
  overhead := Config.codecOverhead n
  passes := fun q w d => otherCheck n q w = some d
  ok := fun _ => True
  init_ok := trivial
  receive_ok := fun _ _ _ _ => trivial
  delivered_ok := fun _ _ => trivial
  payload_le := by
    intro q s b d _ h
    obtain ⟨k, _, h⟩ := Option.bind_eq_some_iff.1 h
    obtain ⟨f, _, h⟩ := Option.bind_eq_some_iff.1 h
    unfold admitted at h
    split at h
    · cases h; assumption
    · cases h
  tracks := fun _ s l => s.pending = l
  init_tracks := fun _ => rfl
  receive_tracks := fun _ _ _ _ h _ => h ▸ rfl
  delivered_tracks := fun _ _ _ _ _ _ _ => rfl
  delivery_passes := by
    intro q s l b d h hd
    obtain ⟨k, _, hd⟩ := Option.bind_eq_some_iff.1 hd
    exact ⟨s.pending.take k, s.pending.drop k, by rw [List.take_append_drop]; exact h.symm, hd⟩

end Sys2Proof.Machine
end

