-- ==== Sys2Proof/Machine/MinCodec.lean ====
section
/-! DEFINITION. The default codec (43 Part B: R273 to R276, R280 to R284), and that it meets R271. No other file mentions its
framing. -/

namespace Sys2Proof.Machine

/-! ### Transmit -/

/-- Byte stuffing with counter `cd` (R274). -/
def stuff (cd : Nat) : List Byte → List Byte
  | [] => []
  | b :: bs =>
    if b = 0xAA then
      if cd - 1 = 0 then b :: 0x55 :: stuff 2 bs else b :: stuff (cd - 1) bs
    else b :: stuff 2 bs

/-- The CRC's four bytes, most-significant first (R273). -/
def u32be (v : U32) : List Byte :=
  [v.extractLsb' 24 8, v.extractLsb' 16 8, v.extractLsb' 8 8, v.extractLsb' 0 8]

/-- The id/control byte: the id, with bit 7 set in a reliable frame (R273, R276). -/
def TxFrame.control (f : TxFrame) : Byte := idByte f.id ||| if f.seq.isSome then 0x80 else 0

/-- The bytes the CRC covers: id/control, the sequence byte of a reliable frame, length, payload (R273). -/
def TxFrame.body (f : TxFrame) : List Byte :=
  f.control :: (f.seq.toList ++ BitVec.ofNat 8 f.payload.length :: f.payload)

/-- The bytes that are stuffed: the body and its CRC (R273). -/
def TxFrame.covered (q : Config.Crc32Params) (f : TxFrame) : List Byte := f.body ++ u32be (crc32 q f.body)

/-- The wire bytes of a frame: SOF, the stuffed bytes, EOF (R273). -/
def minWire (q : Config.Crc32Params) (f : TxFrame) : List Byte :=
  [0xAA, 0xAA, 0xAA] ++ stuff 2 (f.covered q) ++ [0x55]

/-! ### Receive -/

/-- What a frame that passed its checks hands on: its id, and its sequence byte where bit 7 marks it (R276, R283). -/
def Receiver.delivery (r : Receiver) : Delivery :=
  { id := idOf r.idc, seq := if r.idc.getLsbD 7 then some r.seq else none, payload := r.pay }

/-- The state step for a byte that passed the filter (R282). A frame that is delivered leaves `st` at EOF until it has
been handled (R283). -/
def Receiver.stepByte (q : Config.Crc32Params) (b : Byte) (r : Receiver) : Receiver × Option Delivery :=
  match r.st with
  | .sof => (r, none)
  | .idc =>
    if b.getLsbD 7 then ({ r with idc := b, pay := [], crc := crc32Step q (crc32Init q) b, st := .seq }, none)
    else ({ r with idc := b, pay := [], crc := crc32Step q (crc32Init q) b, seq := 0, st := .len }, none)
  | .seq => ({ r with seq := b, crc := crc32Step q r.crc b, st := .len }, none)
  | .len =>
    ({ r with length := b, rem := b, crc := crc32Step q r.crc b, st := if b = 0 then .ck3 else .pay }, none)
  | .pay =>
    ({ r with pay := r.pay ++ [b], crc := crc32Step q r.crc b, rem := r.rem - 1,
              st := if r.rem - 1 = 0 then .ck3 else .pay }, none)
  | .ck3 => ({ r with ck := b.zeroExtend 32 <<< 24, st := .ck2 }, none)
  | .ck2 => ({ r with ck := r.ck ||| (b.zeroExtend 32 <<< 16), st := .ck1 }, none)
  | .ck1 => ({ r with ck := r.ck ||| (b.zeroExtend 32 <<< 8), st := .ck0 }, none)
  | .ck0 =>
    ({ r with ck := r.ck ||| b.zeroExtend 32,
              st := if r.ck ||| b.zeroExtend 32 = crc32Final q r.crc then .eof else .sof }, none)
  | .eof => if b = 0x55 then (r, some r.delivery) else ({ r with st := .sof }, none)

/-- One received byte: the header and stuffing filter of R281, then the state step. -/
def Receiver.receive (q : Config.Crc32Params) (r : Receiver) (b : Byte) : Receiver × Option Delivery :=
  if r.seen = 2 then
    if b = 0xAA then ({ r with seen := 0, st := .idc }, none)
    else if b = 0x55 then ({ r with seen := 0 }, none)
    else ({ r with seen := 0, st := .sof }, none)
  else if b = 0xAA then Receiver.stepByte q b { r with seen := r.seen + 1 }
  else Receiver.stepByte q b { r with seen := 0 }

/-- After a delivered frame has been handled the receiver is in SOF (R283). -/
def Receiver.delivered (r : Receiver) : Receiver := { r with st := .sof }

/-- A run of received bytes, each delivery handled at once: the receiver after it, and the deliveries in order (R270). -/
def Receiver.receiveAll (q : Config.Crc32Params) : Receiver → List Byte → Receiver × List Delivery
  | r, [] => (r, [])
  | r, b :: bs =>
    match r.receive q b with
    | (r', none) => Receiver.receiveAll q r' bs
    | (r', some d) => ((Receiver.receiveAll q r'.delivered bs).1, d :: (Receiver.receiveAll q r'.delivered bs).2)

/-- The receiver's bounds (R280, R282): the payload stored so far, and what is still to come of it, add up to the length
byte. -/
def Receiver.ok (r : Receiver) : Prop :=
  r.pay.length ≤ 255 ∧
  (r.st = .seq ∨ r.st = .len → r.pay = []) ∧
  (r.st = .pay → 0 < r.rem.toNat ∧ r.pay.length + r.rem.toNat = r.length.toNat)

/-- One byte keeps the receiver's bounds. -/
theorem Receiver.receive_ok (q : Config.Crc32Params) (r : Receiver) (b : Byte) (h : r.ok) : (r.receive q b).1.ok := by
  have key : ∀ r : Receiver, r.ok → (r.stepByte q b).1.ok := by
    rintro ⟨st, seen, idc, seq, length, rem, ck, pay, crc⟩ ⟨h1, h2, h3⟩
    cases st <;> simp only [Receiver.stepByte]
    case sof => exact ⟨h1, h2, h3⟩
    case idc => split <;> exact ⟨by simp, by simp, by simp⟩
    case seq => have := h2 (.inl rfl); simp only at this; subst this; exact ⟨by simp, by simp, by simp⟩
    case len =>
      have := h2 (.inr rfl); simp only at this; subst this
      refine ⟨by simp, by simp, ?_⟩
      simp only
      split
      · simp
      · rename_i hb
        intro _
        simp only [List.length_nil, Nat.zero_add, and_true]
        rcases Nat.eq_zero_or_pos b.toNat with h | h
        · exact absurd (BitVec.eq_of_toNat_eq (y := 0#8) h) hb
        · exact h
    case pay =>
      have := h3 rfl
      simp only at this h1
      obtain ⟨hr, he⟩ := this
      have hl := length.isLt
      have : (rem - 1).toNat = rem.toNat - 1 := by rw [BitVec.toNat_sub_of_le]; rfl; exact BitVec.le_def.2 hr
      refine ⟨by simp; omega, by simp only; split <;> simp, ?_⟩
      simp only
      split
      · simp
      · rename_i hz
        intro _
        have : (rem - 1).toNat ≠ 0 := fun h => hz (BitVec.eq_of_toNat_eq h)
        simp; omega
    case eof => split <;> exact ⟨h1, by simp, by simp⟩
    case ck0 => refine ⟨h1, ?_, ?_⟩ <;> simp only <;> split <;> simp
    all_goals exact ⟨h1, by simp, by simp⟩
  unfold Receiver.receive
  split
  · split
    · exact ⟨h.1, by simp, by simp⟩
    · split
      · exact h
      · exact ⟨h.1, by simp, by simp⟩
  · split <;> exact key _ h

/-- A delivered payload has at most 255 bytes (R271 (a)). -/
theorem Receiver.receive_length (q : Config.Crc32Params) (r : Receiver) (b : Byte) (h : r.ok) (d : Delivery)
    (hd : (r.receive q b).2 = some d) : d.payload.length ≤ 255 := by
  unfold Receiver.receive at hd
  split at hd
  · split at hd
    · cases hd
    · split at hd <;> cases hd
  · have key : ∀ r : Receiver, r.ok → ∀ d, (r.stepByte q b).2 = some d → d.payload.length ≤ 255 := by
      intro r hr d hd
      unfold Receiver.stepByte at hd
      split at hd <;> try (first | cases hd | (split at hd <;> cases hd))
      exact hr.1
    split at hd
    · exact key _ (by exact h) d hd
    · exact key _ (by exact h) d hd

/-! ### R271 (b) and (c): what the receiver delivers -/

/-- The integrity check of R283 on the wire bytes of one whole reception: SOF, the stuffed body and its CRC, EOF. Bit 6 of
the id/control byte is ignored (R276). -/
def minPasses (q : Config.Crc32Params) (w : List Byte) (d : Delivery) : Prop :=
  ∃ idc : Byte, d.id = idOf idc ∧ d.seq.isSome = idc.getLsbD 7 ∧ d.payload.length ≤ Config.maxPayload ∧
    let body := idc :: (d.seq.toList ++ BitVec.ofNat 8 d.payload.length :: d.payload)
    w = [0xAA, 0xAA, 0xAA] ++ stuff 2 (body ++ u32be (crc32 q body)) ++ [0x55]

/-- The stuffing counter after a run of bytes (R274). -/
def stuffLeft (cd : Nat) : List Byte → Nat
  | [] => cd
  | b :: bs => if b = 0xAA then (if cd - 1 = 0 then stuffLeft 2 bs else stuffLeft (cd - 1) bs) else stuffLeft 2 bs

theorem stuff_append (cd : Nat) (u v : List Byte) : stuff cd (u ++ v) = stuff cd u ++ stuff (stuffLeft cd u) v := by
  induction u generalizing cd with
  | nil => rfl
  | cons b bs ih =>
    simp only [List.cons_append, stuff, stuffLeft]
    split
    · split <;> simp [ih]
    · simp [ih]

theorem stuffLeft_append (cd : Nat) (u v : List Byte) : stuffLeft cd (u ++ v) = stuffLeft (stuffLeft cd u) v := by
  induction u generalizing cd with
  | nil => rfl
  | cons b bs ih =>
    simp only [List.cons_append, stuffLeft]
    split
    · split <;> exact ih _
    · exact ih _

/-- `w` is the wire form of `u` as far as it came, the last `k` bytes being 0xAA; after two of them a stuff byte is due. -/
def onWire (w u : List Byte) (k : Fin 3) : Prop :=
  if k = 2 then w ++ [0x55] = stuff 2 u ∧ stuffLeft 2 u = 2 else w = stuff 2 u ∧ stuffLeft 2 u = 2 - k.val

theorem onWire_mark {w u : List Byte} {k : Fin 3} (h : onWire w u k) (hk : k ≠ 2) :
    onWire (w ++ [0xAA]) (u ++ [0xAA]) (k + 1) := by
  unfold onWire at *
  rw [if_neg hk] at h
  obtain ⟨rfl, h⟩ := h
  rw [stuff_append, stuffLeft_append, h]
  revert hk
  match k with
  | 0 => intro _; exact ⟨rfl, rfl⟩
  | 1 => intro _; exact ⟨by simp [stuff], rfl⟩
  | 2 => intro h; exact absurd rfl h

theorem onWire_other {w u : List Byte} {k : Fin 3} {b : Byte} (h : onWire w u k) (hk : k ≠ 2) (hb : b ≠ 0xAA) :
    onWire (w ++ [b]) (u ++ [b]) 0 := by
  unfold onWire at *
  rw [if_neg hk] at h
  obtain ⟨rfl, _⟩ := h
  rw [stuff_append, stuffLeft_append]
  exact ⟨by simp only [stuff, if_neg hb], by simp only [stuffLeft, if_neg hb]; rfl⟩

theorem onWire_skip {w u : List Byte} (h : onWire w u 2) : onWire (w ++ [0x55]) u 0 := h

/-- The bytes of the frame so far up to the length byte: id/control, and the sequence byte where bit 7 marks it. -/
def Receiver.head (r : Receiver) : List Byte := r.idc :: (if r.idc.getLsbD 7 then [r.seq] else [])

/-- The bytes of the frame that the CRC covers, as far as the payload came. -/
def Receiver.body (r : Receiver) : List Byte := r.head ++ r.length :: r.pay

/-- What the registers say of the unstuffed bytes `u` received since the header (R282). -/
def Receiver.holds (q : Config.Crc32Params) (r : Receiver) (u : List Byte) : Prop :=
  match r.st with
  | .sof => False
  | .idc => u = []
  | .seq => u = [r.idc] ∧ r.idc.getLsbD 7 = true ∧ r.pay = [] ∧ r.crc = crc32Update q (crc32Init q) u
  | .len => u = r.head ∧ r.pay = [] ∧ r.crc = crc32Update q (crc32Init q) u
  | .pay => u = r.body ∧ 0 < r.rem.toNat ∧ r.pay.length + r.rem.toNat = r.length.toNat ∧
      r.crc = crc32Update q (crc32Init q) u
  | st => r.pay.length = r.length.toNat ∧ r.crc = crc32Update q (crc32Init q) r.body ∧
      match st with
      | .ck3 => u = r.body
      | .ck2 => ∃ b3 : Byte, u = r.body ++ [b3] ∧ r.ck = b3.zeroExtend 32 <<< 24
      | .ck1 => ∃ b3 b2 : Byte, u = r.body ++ [b3, b2] ∧
          r.ck = b3.zeroExtend 32 <<< 24 ||| b2.zeroExtend 32 <<< 16
      | .ck0 => ∃ b3 b2 b1 : Byte, u = r.body ++ [b3, b2, b1] ∧
          r.ck = b3.zeroExtend 32 <<< 24 ||| b2.zeroExtend 32 <<< 16 ||| b1.zeroExtend 32 <<< 8
      | _ => u = r.body ++ u32be (crc32 q r.body)

/-- The receiver's state after the bytes `l`: they end with the 0xAA bytes it has seen in a row, and outside SOF with a
header and the wire form of what its registers hold. -/
def Receiver.tracks (q : Config.Crc32Params) (r : Receiver) (l : List Byte) : Prop :=
  (∃ pre, l = pre ++ List.replicate r.seen.val 0xAA) ∧
  (r.st ≠ .sof → ∃ pre w u, l = pre ++ ([0xAA, 0xAA, 0xAA] ++ w) ∧ onWire w u r.seen ∧ r.holds q u)

/-- The CRC register's four bytes, most-significant first, are its bytes on the wire (R273, R282). -/
theorem u32be_bytes (b3 b2 b1 b0 : Byte) :
    u32be (b3.zeroExtend 32 <<< 24 ||| b2.zeroExtend 32 <<< 16 ||| b1.zeroExtend 32 <<< 8 ||| b0.zeroExtend 32) =
      [b3, b2, b1, b0] := by
  unfold u32be
  have key : ∀ (x y : Byte), (∀ i < 8, x.getLsbD i = y.getLsbD i) → x = y := fun x y h => BitVec.eq_of_getLsbD_eq h
  congr 1
  · apply key; intro i hi; interval_cases i <;> simp
  congr 1
  · apply key; intro i hi; interval_cases i <;> simp
  congr 1
  · apply key; intro i hi; interval_cases i <;> simp
  congr 1
  · apply key; intro i hi; interval_cases i <;> simp

theorem crc32Update_snoc (q : Config.Crc32Params) (c : U32) (u : List Byte) (b : Byte) :
    crc32Step q (crc32Update q c u) b = crc32Update q c (u ++ [b]) := by simp [crc32Update]

/-- The state step leaves `seen` as it is, and does not go on from SOF. -/
theorem Receiver.stepByte_seen (q : Config.Crc32Params) (b : Byte) (r : Receiver) :
    (r.stepByte q b).1.seen = r.seen ∧ (r.st = .sof → (r.stepByte q b).1.st = .sof) := by
  unfold Receiver.stepByte
  split <;> (try split) <;> exact ⟨rfl, by simp_all⟩

/-- The state step carries on what the registers say, or gives the frame up. -/
theorem Receiver.stepByte_holds (q : Config.Crc32Params) (b : Byte) (r : Receiver) (u : List Byte) (h : r.holds q u)
    (hn : (r.stepByte q b).2 = none) (hs : (r.stepByte q b).1.st ≠ .sof) : (r.stepByte q b).1.holds q (u ++ [b]) := by
  obtain ⟨st, seen, idc, seq, length, rem, ck, pay, crc⟩ := r
  cases st <;> simp only [Receiver.holds, Receiver.body, Receiver.head] at h
  case idc =>
    subst h
    simp only [Receiver.stepByte]
    split
    · rename_i h7; exact ⟨rfl, h7, rfl, rfl⟩
    · rename_i h7; simp only [Receiver.holds, Receiver.head, h7]; exact ⟨rfl, trivial, rfl⟩
  case seq =>
    obtain ⟨rfl, h7, rfl, rfl⟩ := h
    exact ⟨congrArg (idc :: ·) (if_pos h7).symm, rfl, crc32Update_snoc _ _ _ _⟩
  case len =>
    obtain ⟨rfl, rfl, rfl⟩ := h
    simp only [Receiver.stepByte]
    split
    · rename_i hb; subst hb
      exact ⟨rfl, crc32Update_snoc _ _ _ _, rfl⟩
    · rename_i hb
      refine ⟨rfl, ?_, by simp, crc32Update_snoc _ _ _ _⟩
      rcases Nat.eq_zero_or_pos b.toNat with h | h
      · exact absurd (BitVec.eq_of_toNat_eq (y := 0#8) h) hb
      · exact h
  case pay =>
    obtain ⟨rfl, hr, hl, rfl⟩ := h
    have h1 : (rem - 1).toNat = rem.toNat - 1 := by rw [BitVec.toNat_sub_of_le]; rfl; exact BitVec.le_def.2 hr
    simp only [Receiver.stepByte]
    split
    · rename_i hz
      rw [hz] at h1
      refine ⟨by simp at h1 ⊢; omega, ?_, by simp [Receiver.body, Receiver.head]⟩
      simp only [crc32Update_snoc]; simp [Receiver.body, Receiver.head]
    · rename_i hz
      have : (rem - 1).toNat ≠ 0 := fun h => hz (BitVec.eq_of_toNat_eq h)
      refine ⟨by simp [Receiver.body, Receiver.head], by simp only; omega, ?_, crc32Update_snoc _ _ _ _⟩
      simp only [List.length_append, List.length_singleton]; omega
  case ck3 => obtain ⟨h1, h2, rfl⟩ := h; exact ⟨h1, h2, b, rfl, rfl⟩
  case ck2 => obtain ⟨h1, h2, b3, rfl, rfl⟩ := h; exact ⟨h1, h2, b3, b, List.append_assoc _ _ _, rfl⟩
  case ck1 =>
    obtain ⟨h1, h2, b3, b2, rfl, rfl⟩ := h
    exact ⟨h1, h2, b3, b2, b, List.append_assoc _ _ _, rfl⟩
  case ck0 =>
    obtain ⟨h1, h2, b3, b2, b1, rfl, rfl⟩ := h
    simp only [Receiver.stepByte] at hs ⊢
    split at hs
    · rename_i hc
      rw [if_pos hc]
      refine ⟨h1, h2, ?_⟩
      show _ = _ ++ u32be (crc32Final q (crc32Update q (crc32Init q) ((idc :: _) ++ length :: pay)))
      rw [← h2, ← hc, u32be_bytes]
      exact List.append_assoc _ _ _
    · exact absurd rfl hs
  case eof =>
    simp only [Receiver.stepByte] at hn hs
    split at hn
    · cases hn
    · rename_i hb; rw [if_neg hb] at hs; exact absurd rfl hs

/-- A delivery is made at the EOF byte of a frame whose registers are complete. -/
theorem Receiver.stepByte_delivery (q : Config.Crc32Params) (b : Byte) (r : Receiver) (d : Delivery)
    (h : (r.stepByte q b).2 = some d) : r.st = .eof ∧ b = 0x55 ∧ d = r.delivery ∧ (r.stepByte q b).1 = r := by
  unfold Receiver.stepByte at h
  split at h <;> try (first | cases h | (split at h <;> cases h))
  rename_i hst hb
  exact ⟨hst, hb, rfl, by simp [Receiver.stepByte, hst, hb]⟩

/-- The step of `receive` on a byte that passes the filter, as `Receiver.tracks` sees it. -/
theorem Receiver.passed_tracks (q : Config.Crc32Params) (r : Receiver) (l : List Byte) (b : Byte) (k : Fin 3)
    (h : r.tracks q l) (hk : ∀ w u, onWire w u r.seen → onWire (w ++ [b]) (u ++ [b]) k)
    (hl : ∃ pre, l ++ [b] = pre ++ List.replicate k.val 0xAA)
    (hn : (Receiver.stepByte q b { r with seen := k }).2 = none) :
    (Receiver.stepByte q b { r with seen := k }).1.tracks q (l ++ [b]) := by
  obtain ⟨e1, e2⟩ := Receiver.stepByte_seen q b { r with seen := k }
  refine ⟨by rw [e1]; exact hl, fun hs => ?_⟩
  obtain ⟨pre, w, u, rfl, hw, hu⟩ := h.2 fun e => hs (e2 e)
  exact ⟨pre, w ++ [b], u ++ [b], by simp, by rw [e1]; exact hk _ _ hw,
    Receiver.stepByte_holds q b { r with seen := k } u hu hn hs⟩

theorem Receiver.receive_tracks (q : Config.Crc32Params) (r : Receiver) (l : List Byte) (b : Byte) (h : r.tracks q l)
    (hn : (r.receive q b).2 = none) : (r.receive q b).1.tracks q (l ++ [b]) := by
  unfold Receiver.receive at *
  obtain ⟨⟨pre, hp⟩, h'⟩ := id h
  split at hn
  · rename_i h2
    rw [if_pos h2]
    rw [h2] at hp
    split at hn
    · rename_i hb; subst hb
      rw [if_pos rfl]
      exact ⟨⟨_, (List.append_nil _).symm⟩, fun _ => ⟨pre, [], [], by rw [hp]; simp, ⟨rfl, rfl⟩, rfl⟩⟩
    · rename_i hb
      rw [if_neg hb]
      split
      · rename_i h5; subst h5
        refine ⟨⟨_, (List.append_nil _).symm⟩, fun hs => ?_⟩
        obtain ⟨pre, w, u, rfl, hw, hu⟩ := h' hs
        exact ⟨pre, w ++ [0x55], u, by simp, onWire_skip (by rw [← h2]; exact hw), hu⟩
      · exact ⟨⟨_, (List.append_nil _).symm⟩, fun hs => absurd rfl hs⟩
  · rename_i h2
    rw [if_neg h2]
    split at hn
    · rename_i hb; subst hb
      rw [if_pos rfl]
      refine Receiver.passed_tracks q r l _ _ h (fun w u hw => onWire_mark hw h2) ⟨pre, ?_⟩ hn
      have : (r.seen + 1).val = r.seen.val + 1 := by
        revert h2; match r.seen with
        | 0 => intro _; rfl
        | 1 => intro _; rfl
        | 2 => intro h; exact absurd rfl h
      rw [this, List.replicate_succ', hp, List.append_assoc]
    · rename_i hb
      rw [if_neg hb]
      exact Receiver.passed_tracks q r l _ _ h (fun w u hw => onWire_other hw h2 hb) ⟨_, (List.append_nil _).symm⟩ hn

/-- What `receive` does when it delivers: the state step at EOF on an unpaired 0x55. -/
theorem Receiver.receive_delivery (q : Config.Crc32Params) (r : Receiver) (b : Byte) (d : Delivery)
    (h : (r.receive q b).2 = some d) :
    r.seen ≠ 2 ∧ r.st = .eof ∧ b = 0x55 ∧ d = r.delivery ∧ (r.receive q b).1 = { r with seen := 0 } := by
  unfold Receiver.receive at *
  split at h
  · split at h
    · cases h
    · split at h <;> cases h
  · rename_i h2
    rw [if_neg h2]
    split at h
    · rename_i hb
      obtain ⟨_, h5, _⟩ := Receiver.stepByte_delivery q b _ d h
      rw [hb] at h5; exact absurd h5 (by decide)
    · rename_i hb
      rw [if_neg hb]
      obtain ⟨h1, h5, h3, h4⟩ := Receiver.stepByte_delivery q b _ d h
      exact ⟨h2, h1, h5, h3, h4⟩

theorem Receiver.delivered_tracks (q : Config.Crc32Params) (r : Receiver) (l : List Byte) (b : Byte) (d : Delivery)
    (_ : r.tracks q l) (hd : (r.receive q b).2 = some d) : (r.receive q b).1.delivered.tracks q [] := by
  obtain ⟨_, _, _, _, e⟩ := Receiver.receive_delivery q r b d hd
  rw [e]
  exact ⟨⟨[], rfl⟩, fun hs => absurd rfl hs⟩

theorem Receiver.delivery_passes (q : Config.Crc32Params) (r : Receiver) (l : List Byte) (b : Byte) (d : Delivery)
    (h : r.tracks q l) (hd : (r.receive q b).2 = some d) : ∃ noise w, l = noise ++ w ∧ minPasses q (w ++ [b]) d := by
  obtain ⟨h2, hst, rfl, rfl, _⟩ := Receiver.receive_delivery q r b d hd
  obtain ⟨pre, w, u, rfl, hw, hu⟩ := h.2 (by rw [hst]; decide)
  refine ⟨pre, _, rfl, r.idc, rfl, ?_, ?_, ?_⟩
  · unfold Receiver.delivery; cases r.idc.getLsbD 7 <;> rfl
  · unfold Receiver.holds at hu; rw [hst] at hu
    have := r.length.isLt
    show r.pay.length ≤ 255
    rw [hu.1]; omega
  · unfold onWire at hw; rw [if_neg h2] at hw
    unfold Receiver.holds at hu; rw [hst] at hu
    obtain ⟨hl, _, hu⟩ := hu
    have hbody : r.idc :: (r.delivery.seq.toList ++ BitVec.ofNat 8 r.delivery.payload.length :: r.delivery.payload) =
        r.body := by
      have hlen : BitVec.ofNat 8 r.pay.length = r.length := by rw [hl]; simp
      unfold Receiver.delivery Receiver.body Receiver.head
      simp only [hlen]
      cases r.idc.getLsbD 7 <;> simp
    simp only [hbody]
    rw [← hu, hw.1]

/-! ### The instance -/

/-- The default codec (43 Part B). -/
def minCodec : FrameCodec Receiver where
  init := Receiver.reset
  receive := Receiver.receive
  delivered := Receiver.delivered
  wire := minWire
  overhead := 11
  passes := minPasses
  ok := Receiver.ok
  init_ok := by refine ⟨?_, ?_, ?_⟩ <;> decide
  receive_ok := fun q s b h => Receiver.receive_ok q s b h
  delivered_ok := fun _ h => ⟨h.1, by simp [Receiver.delivered], by simp [Receiver.delivered]⟩
  payload_le := fun q s b d h hd => Receiver.receive_length q s b h d hd
  tracks := Receiver.tracks
  init_tracks := fun _ => ⟨⟨[], rfl⟩, fun h => absurd rfl h⟩
  receive_tracks := fun q s l b h hn => Receiver.receive_tracks q s l b h hn
  delivered_tracks := fun q s l b d h hd => Receiver.delivered_tracks q s l b d h hd
  delivery_passes := fun q s l b d h hd => Receiver.delivery_passes q s l b d h hd

end Sys2Proof.Machine
end

