-- ==== Sys2Proof/Machine/Transport.lean ====
section
/-! DEFINITION. The transport as it runs inside a context: its parser in the codec `FRAME_CODEC` names, `Transport.poll`,
`Transport.housekeeping`, the transmit sequence (43 R270 to R275, R283), and the OPEN reliability relation's own acts
(R272). -/

namespace Sys2Proof.Machine

/-! ### The transport's codec: the instance `FRAME_CODEC` names -/

/-- The parser takes one received byte. -/
def Transport.receive (p : Config.Params) (t : Transport) (b : Byte) : Transport × Option Delivery :=
  match p.codec with
  | .min => ({ t with rx := (minCodec.receive p.crc32 t.rx b).1 }, (minCodec.receive p.crc32 t.rx b).2)
  | .other n =>
    ({ t with rxOther := ((otherCodec n).receive p.crc32 t.rxOther b).1 }, ((otherCodec n).receive p.crc32 t.rxOther b).2)

/-- The parser goes on after a delivered frame has been handled. -/
def Transport.delivered (p : Config.Params) (t : Transport) : Transport :=
  match p.codec with
  | .min => { t with rx := minCodec.delivered t.rx }
  | .other n => { t with rxOther := (otherCodec n).delivered t.rxOther }

/-- The wire bytes of a frame. -/
def wireBytes (p : Config.Params) (f : TxFrame) : List Byte :=
  match p.codec with
  | .min => minCodec.wire p.crc32 f
  | .other n => (otherCodec n).wire p.crc32 f

/-- The bytes beyond the payload that the space test counts. -/
def wireOverhead (p : Config.Params) : Nat :=
  match p.codec with
  | .min => minCodec.overhead
  | .other n => (otherCodec n).overhead

namespace State

/-- Whether a delivered frame goes to `dispatch` (R283): an unreliable one does; a sequenced one is discarded under
`REL_ONCE`, and under the OPEN relation passes at most once, if it is the next in sequence and the layer takes it
(log 19). The state carries the layer's sequence number on. -/
def acceptDelivery (d : Delivery) (s : State) : State × Bool :=
  match d.seq with
  | none => (s, true)
  | some q =>
    match s.params.reliability with
    | .relOnce => (s, false)
    | .openRel =>
      if q = s.port.transport.relRxSeq ∧ Config.relAccept s.fresh = true then
        ((s.setTransport { s.port.transport with relRxSeq := s.port.transport.relRxSeq + 1 }).setFresh (s.fresh + 1), true)
      else (s.setFresh (s.fresh + 1), false)

/-- `Transport.poll([b])`, whose activation is on top (R270): the parser consumes the byte; a frame it completes is
handed on before the poll returns, and enters `dispatch` if it is the application's. A poll while another one, or
housekeeping, is active is a fault (R285). -/
def stepPoll (b : Byte) (s : State) : State :=
  if s.reentered then s.raise .transportReentered
  else
    match s.port.transport.receive s.params b with
    | (t, none) => (s.setTransport t).leave
    | (t, some d) =>
      match ((s.setTransport t).replaceTop .delivered).acceptDelivery d with
      | (s1, true) => s1.push (.dispatch (frameBytes d.id d.payload))
      | (s1, false) => s1

/-- `Transport.poll` once the frame it handed on has been handled, whose activation is on top: the parser goes on (R283)
and the poll returns. -/
def stepDelivered (s : State) : State := (s.setTransport (s.port.transport.delivered s.params)).leave

/-- `Transport.housekeeping()`, whose activation is on top (R271 (f), R285). Under `REL_ONCE` it does nothing; what the
OPEN relation transmits inside it comes by `relTransmit` (log 18). -/
def stepHousekeeping (s : State) : State :=
  if s.reentered then s.raise .transportReentered else s.leave

/-- The transmit sequence, whose activation is on top (R275), one arbiter call a step. -/
def stepTransmit (ph : TransmitPhase) (s : State) : State :=
  match ph with
  | .spaceTest f =>
    if s.port.tx.space s.params.txCap < f.payload.length + wireOverhead s.params then s.leave
    else s.replaceTop (.transmit (.beginBatch f))
  | .beginBatch f =>
    match s.beginBatch with
    | (s1, true) => s1.replaceTop (.transmit (.appendBytes (wireBytes s.params f)))
    | (s1, false) => s1.leave
  | .appendBytes (b :: bs) => (s.appendToBatch b).replaceTop (.transmit (.appendBytes bs))
  | .appendBytes [] => ((s.replaceTop (.awaiting .send)).endSendEntry).unwind

/-- Whether the OPEN reliability layer may transmit now: the executing context is inside a poll, housekeeping or the send
of a REL frame, at whatever depth (R272), and no frame of its own is partly in the batch ("each time as a complete
frame"). -/
def relMayTransmit (s : State) : Bool :=
  s.stack.any Activation.relChance && s.stack.all fun a => !a.holdsBatch

/-- The OPEN layer transmits its queued frame `k` in the reliable layout with sequence byte `seq` (R272, R273); nothing
where it may not, under `REL_ONCE`, or without such a frame (log 18). -/
def relTransmit (k : Nat) (seq : Byte) (s : State) : State :=
  match s.params.reliability, s.relMayTransmit, s.port.transport.relQueue[k]? with
  | .openRel, true, some f => s.push (.transmit (.spaceTest ⟨f.id, some seq, f.payload⟩))
  | _, _, _ => s

/-- The OPEN layer's queued frame `k` is acknowledged and leaves the queue (R14). -/
def relAck (k : Nat) (s : State) : State :=
  s.setTransport { s.port.transport with relQueue := s.port.transport.relQueue.eraseIdx k }

end State

end Sys2Proof.Machine
end

