-- ==== Sys2Proof/Machine/Advance.lean ====
section
/-! DEFINITION. One atomic step of the executing context: what the innermost activation does next (R13, R39, R81). -/

namespace Sys2Proof.Machine

/-- The step of the innermost activation. A pending `dispatch` is not its: `step` decodes and runs it. An idle context, and
a context whose top only waits, have nothing to do. -/
def State.advance (s : State) : State :=
  match s.stack with
  | [] => s
  | .feed :: _ => s.stepDrain
  | .drain :: _ => s.stepDrain
  | .tick .decide :: _ => s.stepDecide
  | .tick (.emit k now) :: _ => s.stepEmit k now
  | .tick .drain :: _ => s.stepDrain
  | .endSend (.txByte i) :: _ => s.stepTxByte i
  | .endSend .txTc :: _ => s.stepTxTc
  | .endSend .drain :: _ => s.stepDrain
  | .poll b :: _ => s.stepPoll b
  | .delivered :: _ => s.stepDelivered
  | .housekeeping :: _ => s.stepHousekeeping
  | .dispatch _ :: _ => s
  | .transmit ph :: _ => s.stepTransmit ph
  | .relSent :: _ => s.leave
  | .getConfig k total :: _ => s.popTop.sendChunks k total
  | .sysReset :: _ => systemReset s
  | .awaiting _ :: _ => s.unwind

end Sys2Proof.Machine
end

