-- ==== Sys2Proof/Machine/Dispatch.lean ====
section
/-! DEFINITION. The dispatch of instructions to their meanings, one arm per constructor. -/

namespace Sys2Proof.Machine

def exec (i : Instr) (s : State) : Host.Outcome State Fault Refusal :=
  match i with
  | .ping p => Sys2Proof.Machine.execPing p s
  | .reset p => Sys2Proof.Machine.execReset p s
  | .getConfig p => Sys2Proof.Machine.execGetConfig p s
  | .saveConfig p => Sys2Proof.Machine.execSaveConfig p s
  | .clearConfig p => Sys2Proof.Machine.execClearConfig p s
  | .loadBinary p => Sys2Proof.Machine.execLoadBinary p s
  | .startStream p => Sys2Proof.Machine.execStartStream p s
  | .stopStream p => Sys2Proof.Machine.execStopStream p s
  | .setOutput p => Sys2Proof.Machine.execSetOutput p s
  | .getCapabilities p => Sys2Proof.Machine.execGetCapabilities p s
  | .loadConfigReserved p => Sys2Proof.Machine.execLoadConfigReserved p s
  | .configAckReserved p => Sys2Proof.Machine.execConfigAckReserved p s
  | .unrecognized id p => Sys2Proof.Machine.execUnrecognized id p s
  | .pong p => Sys2Proof.Machine.execPong p s
  | .configData p => Sys2Proof.Machine.execConfigData p s
  | .flashAck p => Sys2Proof.Machine.execFlashAck p s
  | .clearConfigAck p => Sys2Proof.Machine.execClearConfigAck p s
  | .binaryAck p => Sys2Proof.Machine.execBinaryAck p s
  | .data p => Sys2Proof.Machine.execData p s
  | .outputAck p => Sys2Proof.Machine.execOutputAck p s
  | .capabilities p => Sys2Proof.Machine.execCapabilities p s
  | .ack p => Sys2Proof.Machine.execAck p s
  | .nack p => Sys2Proof.Machine.execNack p s
  | .crc16Step c b => Sys2Proof.Machine.execCrc16Step c b s
  | .crc16 l => Sys2Proof.Machine.execCrc16 l s
  | .crc32Step c b => Sys2Proof.Machine.execCrc32Step c b s
  | .crc32 l => Sys2Proof.Machine.execCrc32 l s
  | .ringPut b => Sys2Proof.Machine.execRingPut b s
  | .ringGet => Sys2Proof.Machine.execRingGet s
  | .beginSend => Sys2Proof.Machine.execBeginSend s
  | .appendByte b => Sys2Proof.Machine.execAppendByte b s
  | .endSend => Sys2Proof.Machine.execEndSend s
  | .spaceRemaining => Sys2Proof.Machine.execSpaceRemaining s
  | .nowMs => Sys2Proof.Machine.execNowMs s
  | .feed b => Sys2Proof.Machine.execFeed b s
  | .drainAndRelease => Sys2Proof.Machine.execDrainAndRelease s
  | .tick => Sys2Proof.Machine.execTick s
  | .dispatch id p => Sys2Proof.Machine.execDispatch id p s
  | .reply id p m => Sys2Proof.Machine.execReply id p m s

end Sys2Proof.Machine
end

