-- ==== Sys2Proof/Machine/Environment.lean ====
section
/-! DEFINITION. The environment (R13, R81, R405, R406): what each event does, and which agent makes the next move. -/

namespace Sys2Proof.Machine

namespace State

/-- Time passes (R187): the clock advances modulo 2^32, and the watchdog expires if its period has passed without a
refresh (R338, log 11). -/
def elapse (ms : Nat) (s : State) : State :=
  let t := { s with clock := s.clock + BitVec.ofNat 32 ms, wdt := s.wdt + ms }
  if s.params.wdtTimeoutMs ≤ s.wdt + ms then systemReset t else t

/-- Another port becomes the one that moves (R30, R412). -/
def selectPort (k : Nat) (s : State) : State :=
  match s.others[k]? with
  | some p => { s with port := p, others := s.others.set k s.port }
  | none => s

/-- The effect of an event that no context executes. `advance`, `call`, `frame` and `rxEntry` are not its
(see `nextMove`). A power-on may recur (R415, R442; DESIGN CHOICE, log 33), and the
environment may refresh the watchdog while an entry runs (R338; DESIGN CHOICE, log 11). -/
def act (e : Event) (s : State) : State :=
  match e with
  | .advance => s
  | .call _ _ => s
  | .frame _ _ => s
  | .rxEntry _ => s
  | .uartFlags txe tc rxne b => s.setUart { s.port.uart with txe := txe, tc := tc, rxne := rxne, rdr := b }
  | .uartRx b => s.setUart { s.port.uart with rxne := true, rdr := b }
  | .uartTxe => s.setUart { s.port.uart with txe := true }
  | .uartTc => s.setUart { s.port.uart with tc := true }
  | .elapse ms => s.elapse ms
  | .wdtRefresh => s.wdtRefresh
  | .wdtExpire => systemReset s
  | .powerOn => systemReset s
  | .driverState ch v => s.setDriver { s.driver with state := s.driver.state.set ch v }
  | .adcSample k v => { s with adc := s.adc.set k v }
  | .dinLevel k v => { s with din := s.din.set k v }
  | .execTable l => { s with channels := l }
  | .relTransmit k seq => (s.setCtx s.port.running).relTransmit k seq
  | .relAck k => s.relAck k
  | .selectPort k => s.selectPort k

/-- `dispatch` is entered on context `c` with the bytes of a frame (R220). -/
def deliver (c : Ctx) (bytes : List Byte) (s : State) : State := (s.enter c).push (.dispatch bytes)

end State

/-- The next move of the machine: the environment acted, a context starts an operation, the running context's pending
`dispatch` is to be decoded and run, or the running context takes its next step. The state is the one the move starts
from. -/
inductive Move
  | env (s : State)
  | call (i : Instr) (s : State)
  | frame (bytes : List Byte) (s : State)
  | run (s : State)
deriving DecidableEq, Repr

namespace State

/-- The running context's move: a pending `dispatch` on top of its stack is fetched and then waits for its handler. -/
def runMove (s : State) : Move :=
  let t := s.enter s.port.running
  match t.stack with
  | .dispatch bytes :: _ => .frame bytes (t.replaceTop (.awaiting .dispatch))
  | _ => .run t

/-- The receive path of context `c` (R184): the byte RDR holds is read, which clears RXNE (R45), and `feed` starts with
it; without a byte nothing starts. -/
def rxMove (c : Ctx) (s : State) : Move :=
  if s.port.uart.rxne then
    .call (.feed s.port.uart.rdr) ((s.setUart { s.port.uart with rxne := false }).enter c)
  else .env s

/-- Who moves next (R81, R406): the schedule's first event. An entry that cannot start yet, because its context is busy or
I runs, waits while the running context goes on. With no event left the running context goes on. -/
def nextMove (s : State) : Move :=
  match s.schedule with
  | [] => s.runMove
  | .advance :: rest => (s.setSchedule rest).runMove
  | .call c i :: rest =>
    if s.port.mayStart c then .call i ((s.setSchedule rest).enter c) else s.runMove
  | .frame c bytes :: rest =>
    if s.port.mayStart c then .env ((s.setSchedule rest).deliver c bytes) else s.runMove
  | .rxEntry c :: rest =>
    if s.port.mayStart c then (s.setSchedule rest).rxMove c else s.runMove
  | e :: rest => .env ((s.setSchedule rest).act e)

/-- Whether a called instruction is well-formed (R100, R104). -/
def accepts (i : Instr) (s : State) : Bool := i.wf s.params.idReset

/-- The instruction that the bytes delivered to `dispatch` stand for, or why there is none (R101 to R105). -/
def fetch (bytes : List Byte) (s : State) : Except DecodeError Instr :=
  match decode s.params.idReset bytes with
  | .ok (i, _) => .ok i
  | .error e => .error e

/-- The instruction bits `w` pending in `dispatch` on the running context, which is to move next. -/
def placeWord (nbits w : Nat) (s : State) : State :=
  let k := s.port.context s.port.running
  { s with
    port := s.port.setContext s.port.running { k with stack := .dispatch (wordBytes nbits w) :: k.stack }
    schedule := .advance :: s.schedule }

end State

end Sys2Proof.Machine
end

