-- ==== Sys2Proof/Machine/Step.lean ====
section
/-! DEFINITION. One step of the machine: one event of the environment, or one atomic step of a context (R13). -/

namespace Sys2Proof.Machine

/-- One step. A state with a recorded fault takes none (R43). -/
def step (s : State) : Host.Outcome State Fault Refusal :=
  match s.fault with
  | some k => .fault k
  | none =>
    match s.nextMove with
    | .env t => .next t
    | .call i t => if t.accepts i then exec i t else .refused .illFormed
    | .frame bytes t =>
      match t.fetch bytes with
      | .ok i => exec i t
      | .error e => .refused (.badFrame e)
    | .run t => t.advance.settle

/-- The bits `w` stored where `step` fetches its next instruction: pending in `dispatch` on the running context, whose
step comes next (log 1). -/
def State.withFetchWord (s : State) (nbits w : Nat) : State := s.placeWord nbits w

end Sys2Proof.Machine
end

