-- ==== Sys2Proof/Safety.lean ====
section
/-! DEFINITION. What claims use: the machine's invariant `Inv` (the bounds of 10_state R32 to R42, the canonical flash, the
receiver's bounds), and `Orderly`, the discipline of a machine that is driven through its own entry points only (R172,
R190, R403). -/

namespace Sys2Proof.Machine

/-! ### Bounds that every step keeps -/

/-- R32, R34: at most `TX_CAP` bytes; without a batch in flight nobody owns it and nobody is rejected. -/
def TxBatch.ok (cap : Nat) (t : TxBatch) : Prop :=
  t.len ≤ cap ∧ (t.inProgress = false → t.owner = none ∧ t.rejectedM = false ∧ t.rejectedI = false)

/-- R35, R36: the array has `RX_CAP` entries and both indices point into it. -/
def Ring.ok (cap : Nat) (r : Ring) : Prop := r.buf.length = cap ∧ r.head < cap ∧ r.tail < cap

/-- R41: the legal values of `period_ms`. -/
def Stream.ok (t : Stream) : Prop := 10 ≤ t.periodMs.toNat ∧ t.periodMs.toNat ≤ 1000

/-- One port's bounds. -/
def Port.ok (p : Config.Params) (q : Port) : Prop :=
  q.tx.ok p.txCap ∧ q.rx.ok p.rxCap ∧ q.stream.ok ∧ q.transport.rx.ok

/-- The flash sector's contents are in canonical form and lie inside the sector (R79, R330). -/
def Flash.ok (p : Config.Params) (f : Flash) : Prop :=
  Memory.wf p.flashErased f.cells = true ∧
  ∀ c ∈ f.cells, p.sectorBase ≤ c.1 ∧ c.1 < p.sectorBase + p.sectorSize

/-- The invariant of the machine. -/
def State.Inv (s : State) : Prop :=
  s.port.ok s.params ∧ (∀ q ∈ s.others, q.ok s.params) ∧ s.others.length + 1 = s.params.nPorts ∧
  s.blob.length ≤ Config.blobCap ∧ s.flash.ok s.params

/-! ### A responsive UART -/

/-- `n` rounds in which the UART becomes ready for the next byte and the waiting context then takes its step (R45, R176). -/
def readyRounds : Nat → List Event
  | 0 => []
  | n + 1 => .uartTxe :: .advance :: readyRounds n

/-- The events that carry a batch of `n` bytes to its end: a round for each byte, then TC and the last step (R176). -/
def batchEvents (n : Nat) : List Event := readyRounds n ++ [.uartTc, .advance]

/-- A run of the machine (Host/Core.lean). -/
abbrev runSteps (n : Nat) (s : State) : Host.Outcome State Fault Refusal :=
  Host.Core.run { State := State, Fault := Fault, Refusal := Refusal, step := step, reset := State.reset } n s

/-! ### Orderly machines -/

/-- An event that starts something in a context, and waits while it cannot (R81, R406). -/
def Event.starts : Event → Bool
  | .call _ _ => true
  | .frame _ _ => true
  | .rxEntry _ => true
  | _ => false

/-- An event that starts nothing but the block's own entries `feed` and `tick` (R80, R405). -/
def Event.orderly : Event → Bool
  | .call _ (.feed _) => true
  | .call _ .tick => true
  | .call _ _ => false
  | .frame _ _ => false
  | _ => true

/-- The entry at the bottom of a context's stack. -/
def Activation.isEntry : Activation → Bool
  | .feed => true
  | .tick _ => true
  | _ => false

/-- The activations an entry can have above it. -/
def Activation.isInner : Activation → Bool
  | .feed => false
  | .drain => false
  | .tick _ => false
  | .endSend .drain => false
  | _ => true

/-- A pending `dispatch` holds a frame (R100). -/
def Activation.frameOk : Activation → Bool
  | .dispatch bytes => (decode 0 bytes).isOk
  | _ => true

/-- The shape of a busy context's stack: inner operations over one entry; only the innermost may have a batch in flight; at
most one is inside the transport's parser or housekeeping; a pending frame is a frame. -/
def orderlyStack (l : List Activation) : Prop :=
  ∃ inner entry, l = inner ++ [entry] ∧ entry.isEntry = true ∧ inner.all Activation.isInner = true ∧
    l.tail.all (fun a => !a.holdsBatch) = true ∧
    (inner.filter Activation.inTransport).length ≤ 1 ∧
    inner.all Activation.frameOk = true

/-- The guard is held exactly while one context is busy, never both (R38, R190), and the batch is in flight exactly while
that context's innermost activation drives it, as its owner; nobody is ever rejected (R33, R34, R172). -/
def Port.orderly (q : Port) : Prop :=
  (q.ctxM.stack = [] ∨ q.ctxI.stack = []) ∧
  (q.rxBusy = true ↔ q.ctxM.stack ≠ [] ∨ q.ctxI.stack ≠ []) ∧
  (∀ c, (q.context c).stack ≠ [] → orderlyStack (q.context c).stack) ∧
  (q.tx.inProgress = true ↔ ∃ c a, (q.context c).stack.head? = some a ∧ a.holdsBatch = true) ∧
  (∀ c a, (q.context c).stack.head? = some a → a.holdsBatch = true → q.tx.owner = some c) ∧
  q.tx.rejectedM = false ∧ q.tx.rejectedI = false ∧
  q.transport.rx.ok

/-- A machine that its environment drives through the entry points only. -/
def State.Orderly (s : State) : Prop :=
  s.fault = none ∧ s.schedule.all Event.orderly = true ∧ s.port.orderly ∧ ∀ q ∈ s.others, q.orderly

end Sys2Proof.Machine
end

