-- ==== Sys2Proof/Certificates/Slice0/Obligations.lean ====
section
/-! DEFINITION. The statements for the provers. Rule numbers are those of spec/; "log n" is notes/assumptions/n.md. -/

open Sys2Proof Sys2Proof.Machine

/-! ### Decoding and encoding (30_encoding) -/

/-- Decode after encode: every well-formed frame instruction, with every payload of at most 255 bytes, is read back from
its bytes, and what stands behind them is left over (R100 to R105, R276). -/
def Obligations.DecodeInvertsEncode : Prop :=
  ∀ (r : FrameId) (i : Instr) (bytes rest : List Byte), r ∉ Config.takenIds → i.wf r = true →
    encode r i = some bytes → decode r (bytes ++ rest) = .ok (i, rest)

/-- Encode after decode: bytes that decode, with bit 6 of the id/control byte clear, are the encoding of the well-formed
instruction read from them and the bytes left over (R101 to R105, R276). -/
def Obligations.EncodeInvertsDecode : Prop :=
  ∀ (r : FrameId) (idc len : Byte) (bytes rest : List Byte) (i : Instr), r ∉ Config.takenIds →
    idc.getLsbD 6 = false → decode r (idc :: len :: bytes) = .ok (i, rest) →
    i.wf r = true ∧ ∃ f, encode r i = some f ∧ f ++ rest = idc :: len :: bytes

/-- R105: each of the 64 ids has a defined behaviour: the instruction of every id completes, whatever the payload. -/
def Obligations.EveryIdCompletes : Prop :=
  ∀ (id : FrameId) (p : List Byte) (s : State), ∃ t, exec (decodeId s.params.idReset id p) s = .next t

/-- A few frames written out from the spec's encodings (R101, R106, R273) decode to the instruction they stand for. -/
def Obligations.SpecFramesDecode : Prop :=
  ∀ r : FrameId, r ∉ Config.takenIds →
    decode r [0x01, 0x00] = .ok (.ping [], []) ∧
    decode r [0x18, 0x07, 0x00, 0x00, 0x01, 0x00, 0x01, 0x02, 0x03] =
      .ok (.loadBinary [0x00, 0x00, 0x01, 0x00, 0x01, 0x02, 0x03], []) ∧
    decode r [0x20, 0x02, 0xC8, 0x00] = .ok (.startStream [0xC8, 0x00], []) ∧
    decode r [0x28, 0x02, 0x03, 0x01] = .ok (.setOutput [0x03, 0x01], []) ∧
    decode r [0x3F, 0x02, 0x05, 0x01] = .ok (.nack [0x05, 0x01], []) ∧
    decode r [idByte r, 0x00] = .ok (.reset [], [])

/-! ### The step -/

/-- A step runs the decoded instruction: where the bytes pending in `dispatch` on the running context decode to `i` and
that context is to move, the step is `exec` of `i`, with `dispatch` waiting below the handler (R13, R220; the schedule and
the pending bytes are the model's own, log 1, log 5). -/
def Obligations.StepRunsDeliveredFrame : Prop :=
  ∀ (s : State) (bytes tail : List Byte) (l : List Activation) (i : Instr) (rest : List Event), s.fault = none →
    s.schedule = .advance :: rest → (s.port.context s.port.running).stack = .dispatch bytes :: l →
    decode s.params.idReset bytes = .ok (i, tail) →
    step s = exec i (((s.setSchedule rest).setCtx s.port.running).setStack (.awaiting .dispatch :: l))

/-- An entry or port operation that a context may start is run by the step, in that context (R80, R81, R111; the
schedule is the model's own, log 5). -/
def Obligations.StepRunsCalledOperation : Prop :=
  ∀ (s : State) (c : Ctx) (i : Instr) (rest : List Event), s.fault = none → s.schedule = .call c i :: rest →
    s.port.mayStart c = true → i.wf s.params.idReset = true →
    step s = exec i ((s.setSchedule rest).setCtx c)

/-- R81, R406: while context I is busy it takes the steps, and M's activation stack and last result stay as they are,
unless the step resets the system. An entry, port operation or frame that comes next, for M or for I, cannot start: I takes
its step all the same, and what waits stays at the schedule's head (the schedule and the last result are the model's own,
log 5, log 24). -/
def Obligations.InterruptRunsToCompletion : Prop :=
  ∀ s t : State, s.port.ctxI.stack ≠ [] → step s = .next t →
    (s.schedule = [] ∨ ∃ e rest, s.schedule = e :: rest ∧ (e = .advance ∨ e.starts = true)) →
    (t.ctx = .i ∧ t.port.ctxM = s.port.ctxM ∨ t.port.ctxM = Context.reset ∧ t.port.ctxI = Context.reset) ∧
    (∀ rest, s.schedule = .advance :: rest → t.schedule = rest) ∧
    (∀ e rest, s.schedule = e :: rest → e.starts = true → t.schedule = e :: rest)

/-- R43: a recorded fault is the first one, no further step is taken, a system reset does not clear it, and the machine
starts without one. -/
def Obligations.FaultIsSticky : Prop :=
  State.reset.fault = none ∧
  ∀ (s : State) (k : Fault), s.fault = some k →
    step s = .fault k ∧ (systemReset s).fault = some k ∧ ∀ k', (s.raise k').fault = some k

/-! ### Invariants -/

/-- The machine right after reset is within the bounds of `Inv` and is orderly. -/
def Obligations.ResetIsWithinInvariants : Prop := State.reset.Inv ∧ State.reset.Orderly

/-- Every step keeps the bounds: the batch within TX_CAP and unowned when idle (R32, R34), the ring's indices in range
(R35), the stream period legal (R41), the blob within its buffer (R42), the receiver's payload within its length (R280),
the flash in canonical form inside its sector (R79, R330), the number of ports (R412). In every state, bounds or not, it
keeps the parameters (R7) and leaves every port but the selected one as it was, unless it selects another port or resets
the system (R30, R412). -/
def Obligations.StepKeepsBounds : Prop :=
  ∀ s t : State, step s = .next t →
    (s.Inv → t.Inv) ∧ t.params = s.params ∧
    ((∀ k rest, s.schedule ≠ .selectPort k :: rest) →
      t.others = s.others ∨ ∃ u : State, u.others = s.others ∧ u.params = s.params ∧ t = systemReset u)

/-- R190, R403: a machine driven through its own entries only never stops: each step goes on to an orderly machine, so
neither model fault is reachable, the transport is never re-entered, and the guard is held exactly while one context is
busy. -/
def Obligations.OrderlyNeverFaults : Prop :=
  ∀ s : State, s.Orderly → ∃ t, step s = .next t ∧ t.Orderly

/-! ### The CRC engine (40_crc) -/

/-- The four CRC operations complete, give the CRC of their operands to the caller, and change nothing else (R140, R141,
R142, R151, R152; how a reflected register takes its initial value is the model's choice, log 21). -/
def Obligations.CrcOperationsComplete : Prop :=
  ∀ (s : State) (c16 : U16) (c32 : U32) (b : Byte) (l : List Byte),
    exec (.crc16Step c16 b) s = .next (s.setRet (.crc16 (crc16Step c16 b))) ∧
    exec (.crc16 l) s = .next (s.setRet (.crc16 (l.foldl crc16Step 0xFFFF))) ∧
    exec (.crc32Step c32 b) s = .next (s.setRet (.crc32 (crc32Step s.params.crc32 c32 b))) ∧
    exec (.crc32 l) s = .next (s.setRet (.crc32 (crc32Final s.params.crc32
      (l.foldl (crc32Step s.params.crc32) (crc32Init s.params.crc32)))))

/-- The CRCs in bit-serial form: CRC-16 takes bit 7 of each byte first and shifts left, CRC-32 takes bit 0 first and shifts
right; each bit meets the bit that leaves the register, and where they differ the polynomial is XORed in (R73, R141, R142,
R150 to R152). -/
def Obligations.CrcTakesBitsInOrder : Prop :=
  ∀ l : List Byte,
    crc16 l = (l.flatMap fun b => (List.range 8).map fun k => b.getLsbD (7 - k)).foldl
      (fun (c : U16) bit => if c.getLsbD 15 != bit then (c <<< 1) ^^^ 0x1021 else c <<< 1) 0xFFFF ∧
    crc32 Config.crc32IsoHdlc l = 0xFFFFFFFF ^^^ (l.flatMap fun b => (List.range 8).map fun k => b.getLsbD k).foldl
      (fun (c : U32) bit => if c.getLsbD 0 != bit then (c >>> 1) ^^^ 0xEDB88320 else c >>> 1) 0xFFFFFFFF

/-- A change of one byte changes the CRC-16 (R337: a single corrupted byte is a burst of at most 16 bits). -/
def Obligations.Crc16DetectsOneByte : Prop :=
  ∀ (xs ys : List Byte) (a b : Byte), a ≠ b → crc16 (xs ++ a :: ys) ≠ crc16 (xs ++ b :: ys)

/-- A change of one byte changes the CRC-32 of the default parameters (R150, R284: a CRC mismatch discards the frame). -/
def Obligations.Crc32DetectsOneByte : Prop :=
  ∀ (xs ys : List Byte) (a b : Byte), a ≠ b →
    crc32 Config.crc32IsoHdlc (xs ++ a :: ys) ≠ crc32 Config.crc32IsoHdlc (xs ++ b :: ys)

/-! ### The ring (41_arbiter R170, R180 to R183) -/

/-- ring_put completes. On a ring that is not full the byte is STORED behind the unread bytes; on a full ring it is
DROPPED and the ring stays; nothing else of the machine changes (R170, R182). -/
def Obligations.RingPut : Prop :=
  ∀ (s : State) (b : Byte), s.port.rx.ok s.params.rxCap →
    ∃ r stored, exec (.ringPut b) s = .next ((s.setRx r).setRet (.put stored)) ∧ r.ok s.params.rxCap ∧
      (stored = true ↔ (s.port.rx.head + 1) % s.params.rxCap ≠ s.port.rx.tail) ∧
      (stored = true → r.unread s.params.rxCap = s.port.rx.unread s.params.rxCap ++ [b] ∧ r.tail = s.port.rx.tail) ∧
      (stored = false → r = s.port.rx)

/-- ring_get on a ring that is not empty completes: it returns the oldest unread byte and removes it; nothing else of the
machine changes (R180, R183). -/
def Obligations.RingGet : Prop :=
  ∀ s : State, s.port.rx.ok s.params.rxCap → s.port.rx.head ≠ s.port.rx.tail →
    ∃ b r, exec .ringGet s = .next ((s.setRx r).setRet (.byte b)) ∧ r.ok s.params.rxCap ∧ r.head = s.port.rx.head ∧
      s.port.rx.unread s.params.rxCap = b :: r.unread s.params.rxCap

/-- ring_get on an empty ring is refused by name: the model's choice for a call R180 says is impossible (log 23). -/
def Obligations.RingGetOnEmptyRefused : Prop :=
  ∀ s : State, s.port.rx.head = s.port.rx.tail → exec .ringGet s = .refused .ringGetOnEmpty

/-- Overflow keeps every earlier byte and drops only the excess: putting any bytes into an empty ring leaves the first
`RX_CAP − 1` of them unread, in order (R36, R181, R182, R183). -/
def Obligations.RingKeepsTheFirstBytes : Prop :=
  ∀ (cap : Nat) (r : Ring) (l : List Byte), 2 ≤ cap → r.ok cap → r.head = r.tail →
    (l.foldl (fun r b => (r.put cap b).1) r).unread cap = l.take (cap - 1)

/-! ### The batch (41_arbiter R171 to R178) -/

/-- begin_send: with no batch in flight OK, and the caller owns an empty batch; with one in flight BUSY, the batch, its
length and its owner stay, and the caller joins `tx.rejected`. Nothing else changes (R171). -/
def Obligations.BeginSend : Prop :=
  ∀ s : State,
    (s.port.tx.inProgress = false →
      exec .beginSend s = .next ((s.setTx { s.port.tx with buf := [], inProgress := true, owner := some s.ctx }).setRet
        (.begun true))) ∧
    (s.port.tx.inProgress = true →
      ∃ x, exec .beginSend s = .next ((s.setTx x).setRet (.begun false)) ∧ x.buf = s.port.tx.buf ∧
        x.inProgress = true ∧ x.owner = s.port.tx.owner ∧
        ∀ c, x.rejected c = (s.port.tx.rejected c || decide (c = s.ctx)))

/-- append_byte: without a batch the byte is ignored; a context that does not own the batch, or that got BUSY for it, raises
TX_FOREIGN_BATCH; the owner's byte is appended with room left and dropped with the batch full. Nothing else changes
(R173). -/
def Obligations.AppendByte : Prop :=
  ∀ (s : State) (b : Byte), s.fault = none →
    (s.port.tx.inProgress = false → exec (.appendByte b) s = .next s) ∧
    (s.port.tx.inProgress = true → s.port.tx.owner ≠ some s.ctx ∨ s.port.tx.rejected s.ctx = true →
      exec (.appendByte b) s = .fault .txForeignBatch) ∧
    (s.port.tx.inProgress = true → s.port.tx.owner = some s.ctx → s.port.tx.rejected s.ctx = false →
      exec (.appendByte b) s = .next (
        if s.port.tx.len = s.params.txCap then s else s.setTx { s.port.tx with buf := s.port.tx.buf ++ [b] }))

/-- end_send's entry check: without a batch it is a no-op; a context that does not own the batch, or that got BUSY for it,
raises TX_FOREIGN_BATCH (R175). -/
def Obligations.EndSendEntryCheck : Prop :=
  ∀ s : State, s.fault = none →
    (s.port.tx.inProgress = false → exec .endSend s = .next s) ∧
    (s.port.tx.inProgress = true → s.port.tx.owner ≠ some s.ctx ∨ s.port.tx.rejected s.ctx = true →
      exec .endSend s = .fault .txForeignBatch)

/-- end_send of the owner's non-empty batch: a received byte is captured first (`c` is the state after that); then with TXE
the first byte goes to the UART, TXE and TC fall, and the context waits for the next byte or for TC; without TXE it waits
for the first byte. Nothing else changes (R176). -/
def Obligations.EndSendStarts : Prop :=
  ∀ (s : State) (b : Byte) (bs : List Byte), s.fault = none → s.port.tx.inProgress = true →
    s.port.tx.owner = some s.ctx → s.port.tx.rejected s.ctx = false → s.port.tx.buf = b :: bs →
    let c := if s.port.uart.rxne then
        (s.setRx (s.port.rx.put s.params.rxCap s.port.uart.rdr).1).setUart { s.port.uart with rxne := false }
      else s
    exec .endSend s = .next (
      if s.port.uart.txe then
        (c.setUart { c.port.uart with txe := false, tc := false, sent := s.port.uart.sent ++ [b] }).setStack
          (.endSend (if bs = [] then .txTc else .txByte 1) :: s.stack)
      else c.setStack (.endSend (.txByte 0) :: s.stack))

/-- end_send of the owner's empty batch sends nothing, ends the batch, and takes the guard and enters the drain phase if the
guard was free (R176, R177, D6). -/
def Obligations.EndSendWithoutBytes : Prop :=
  ∀ s : State, s.fault = none → s.port.tx.inProgress = true → s.port.tx.owner = some s.ctx →
    s.port.tx.rejected s.ctx = false → s.port.tx.buf = [] →
    exec .endSend s = .next (
      let t := s.setTx TxBatch.reset
      if s.port.rxBusy then t else (t.setRxBusy true).setStack (.endSend .drain :: s.stack))

/-- R70, R176: with a UART that becomes ready round by round and no inbound byte, the bytes of the batch from `i` on leave
in array order, then the batch ends and the guard is held: by the drain phase if it was free, else by its holder, to
whom the call returns (the schedule, the step's extent and the record `sent` are the model's own, log 5, log 24, log 25). -/
def Obligations.BatchLeavesInOrder : Prop :=
  ∀ (s : State) (i : Nat) (l : List Activation) (rest : List Event), s.fault = none → i < s.port.tx.len →
    (s.port.context s.port.running).stack = .endSend (.txByte i) :: l → s.port.uart.rxne = false →
    s.schedule = batchEvents (s.port.tx.len - i) ++ rest →
    ∃ t, runSteps (2 * (s.port.tx.len - i) + 2) s = .next t ∧
      t.port.uart.sent = s.port.uart.sent ++ s.port.tx.buf.drop i ∧ t.schedule = rest ∧
      t.port.tx.inProgress = false ∧ t.port.rxBusy = true ∧ t.port.rx = s.port.rx ∧
      (t.port.context s.port.running).stack =
        if s.port.rxBusy then l.dropWhile Activation.isAwaiting else .endSend .drain :: l

/-- R416: a UART that never becomes ready leaves the context in its wait: every step is a wait step that goes on, and no
fault (the empty schedule is the model's own, log 5). -/
def Obligations.SilentUartMeansWaiting : Prop :=
  ∀ (s : State) (ph : SendPhase) (l : List Activation) (n : Nat), s.fault = none → s.schedule = [] →
    (s.port.context s.port.running).stack = .endSend ph :: l → s.port.uart.rxne = false →
    (∃ i, ph = .txByte i ∧ s.port.uart.txe = false) ∨ (ph = .txTc ∧ s.port.uart.tc = false) →
    ∃ t, runSteps n s = .next t ∧ t.port = s.port ∧ t.schedule = [] ∧ t.fault = none

/-- R176: each wait iteration captures a received byte before it tests the ready flag: in phase TX_BYTE and TX_TC alike
the ring after the step holds it (dropped only when full), and RXNE falls (log 5, log 25). -/
def Obligations.WaitCapturesReceivedByte : Prop :=
  ∀ (s t : State) (ph : SendPhase) (l : List Activation), s.fault = none → s.schedule = [] →
    (s.port.context s.port.running).stack = .endSend ph :: l → ph ≠ .drain → s.port.uart.rxne = true →
    step s = .next t →
    t.port.rx = (s.port.rx.put s.params.rxCap s.port.uart.rdr).1 ∧ t.port.uart.rxne = false

/-- space_remaining and now_ms complete with their value and change nothing else (R174, R187). -/
def Obligations.SpaceAndClockReads : Prop :=
  ∀ s : State,
    exec .spaceRemaining s = .next (s.setRet (.space (if s.port.tx.inProgress then s.params.txCap - s.port.tx.len
      else s.params.txCap))) ∧
    exec .nowMs s = .next (s.setRet (.time s.clock))

/-! ### Feed, drain, poll (41_arbiter R185, R186; 43 R270, R283) -/

/-- feed while a batch is in progress or the guard is held puts the byte into the ring; else it takes the guard and enters
`Transport.poll` with it. Nothing else changes (R185). -/
def Obligations.FeedDefersOrPolls : Prop :=
  ∀ (s : State) (b : Byte),
    ((s.port.tx.inProgress = true ∨ s.port.rxBusy = true) →
      exec (.feed b) s = .next (s.setRx (s.port.rx.put s.params.rxCap b).1)) ∧
    (s.port.tx.inProgress = false → s.port.rxBusy = false →
      exec (.feed b) s = .next ((s.setRxBusy true).setStack (.poll b :: .feed :: s.stack)))

/-- drain_and_release: on an empty ring it releases the guard and returns; else it takes the oldest byte and polls it
(R186). It is the loop of the operation called on its own, and of each that uses it: `end_send` after its batch, `feed` and
the tick, which come back to it after every poll and so take what was captured meanwhile, oldest first, before the guard is
released (R177, R185, R186). That the call on its own runs so whether or not the guard is held, where R186 speaks of a
caller that holds it, is the model's choice (log 29). -/
def Obligations.DrainAndRelease : Prop :=
  (∀ s : State, s.port.rx.ok s.params.rxCap →
    (s.port.rx.unread s.params.rxCap = [] →
      exec .drainAndRelease s = .next ((s.setRxBusy false).setStack (s.stack.dropWhile Activation.isAwaiting))) ∧
    (∀ b us, s.port.rx.unread s.params.rxCap = b :: us →
      ∃ r, exec .drainAndRelease s = .next ((s.setRx r).setStack (.poll b :: .drain :: s.stack)) ∧
        r.ok s.params.rxCap ∧ r.unread s.params.rxCap = us)) ∧
  ∀ (s : State) (a : Activation) (l : List Activation), s.fault = none → s.schedule = [] →
    (s.port.context s.port.running).stack = a :: l → (a = .feed ∨ a = .tick .drain ∨ a = .endSend .drain ∨ a = .drain) →
    s.port.rx.ok s.params.rxCap →
    let t := s.setCtx s.port.running
    (s.port.rx.unread s.params.rxCap = [] →
      step s = .next ((t.setRxBusy false).setStack (l.dropWhile Activation.isAwaiting))) ∧
    (∀ b us, s.port.rx.unread s.params.rxCap = b :: us →
      ∃ r, step s = .next ((t.setRx r).setStack (.poll b :: a :: l)) ∧ r.ok s.params.rxCap ∧
        r.unread s.params.rxCap = us)

/-- A poll step on a transport nobody else is in: the parser takes the byte. A frame it completes is handed on before the
poll returns: an unreliable one enters `dispatch`, under either relation; a sequenced one is discarded by REL_ONCE, and
under the OPEN relation it is discarded or, if it is the next in sequence, enters `dispatch`. Once it has been handled the
parser goes on, the default one in SOF, and the poll returns (R270, R283). The parser is the default codec's receiver, or
that of the codec FRAME_CODEC names. The step's extent is the model's (log 6), and so is the OPEN relation's choice
(log 19). -/
def Obligations.PollDeliversFrames : Prop :=
  (∀ (s : State) (b : Byte) (l : List Activation), s.fault = none → s.schedule = [] →
    (s.port.context s.port.running).stack = .poll b :: l → l.all (fun a => !a.inTransport) = true →
    (s.port.context s.port.running.other).stack.all (fun a => !a.inTransport) = true →
    let out := s.port.transport.receive s.params b
    let t := (s.setCtx s.port.running).setTransport out.1
    let enter (d : Delivery) (v : State) := v.setStack (.dispatch (frameBytes d.id d.payload) :: .delivered :: l)
    (out.2 = none → step s = .next (t.setStack (l.dropWhile Activation.isAwaiting))) ∧
    (∀ d, out.2 = some d → d.seq = none → step s = .next (enter d t)) ∧
    (∀ d q, out.2 = some d → d.seq = some q →
      (s.params.reliability = .relOnce → step s = .next (t.setStack (.delivered :: l))) ∧
      (s.params.reliability = .openRel →
        step s = .next ((t.setStack (.delivered :: l)).setFresh (s.fresh + 1)) ∨
        q = s.port.transport.relRxSeq ∧
          step s = .next ((enter d (t.setTransport { out.1 with relRxSeq := q + 1 })).setFresh (s.fresh + 1))))) ∧
  (∀ (s : State) (l : List Activation), s.fault = none → s.schedule = [] →
    (s.port.context s.port.running).stack = .delivered :: l →
    step s = .next (((s.setCtx s.port.running).setTransport (s.port.transport.delivered s.params)).setStack
      (l.dropWhile Activation.isAwaiting))) ∧
  ∀ (p : Config.Params) (t : Transport) (b : Byte), p.codec = .min →
    t.receive p b = ({ t with rx := (t.rx.receive p.crc32 b).1 }, (t.rx.receive p.crc32 b).2) ∧
    t.delivered p = { t with rx := { t.rx with st := .sof } }

/-- R285, R403: a poll or a housekeeping that meets another one active on the port stops with TRANSPORT_REENTERED. -/
def Obligations.ReenteredTransportFaults : Prop :=
  ∀ (s : State) (a : Activation) (l : List Activation), s.fault = none → s.schedule = [] →
    (s.port.context s.port.running).stack = a :: l → (a = .housekeeping ∨ ∃ b, a = .poll b) →
    (l.any Activation.inTransport = true ∨
      (s.port.context s.port.running.other).stack.any Activation.inTransport = true) →
    step s = .fault .transportReentered

/-! ### The codec (43 Part B) -/

/-- R273, R274, R281, R282, R283: the receiver, wherever it stands with no pending 0xAA, reads the wire bytes of a frame,
unreliable or with a sequence byte, as exactly one delivery of that id, sequence byte and payload, and is back in SOF once
it has been handled. R271 (b), (c): whatever bytes it receives from `Transport.init` on, its deliveries stand for receptions
on the wire, one each and in order, no two of which share a byte, and each of which passes the integrity check. -/
def Obligations.ReceiverInvertsWire : Prop :=
  (∀ (q : Config.Crc32Params) (r : Receiver) (id : FrameId) (sq : Option Byte) (p : List Byte), r.seen = 0 →
    p.length ≤ 255 →
    ∃ r', Receiver.receiveAll q r (minWire q ⟨id, sq, p⟩) = (r', [⟨id, sq, p⟩]) ∧ r'.st = .sof ∧ r'.seen = 0) ∧
  ∀ (q : Config.Crc32Params) (l : List Byte),
    ∃ (receptions : List (List Byte × List Byte)) (rest : List Byte),
      l = receptions.flatMap (fun x => x.1 ++ x.2) ++ rest ∧
      List.Forall₂ (fun x d => minPasses q x.2 d) receptions (Receiver.receiveAll q Receiver.reset l).2

/-- R274: no three consecutive 0xAA bytes occur after the SOF. -/
def Obligations.NoThreeMarksAfterSof : Prop :=
  ∀ (q : Config.Crc32Params) (f : TxFrame), ¬ [0xAA, 0xAA, 0xAA] <:+: (minWire q f).drop 3

/-- R275: an unreliable frame takes at most 395 bytes on the wire, a reliable one at most 397. -/
def Obligations.WireLengthBound : Prop :=
  ∀ (q : Config.Crc32Params) (id : FrameId) (seq : Byte) (p : List Byte), p.length ≤ 255 →
    (minWire q ⟨id, none, p⟩).length ≤ 395 ∧ (minWire q ⟨id, some seq, p⟩).length ≤ 397

/-- R221, R275: a frame the transport sends under the default codec with room in the batch, on a responsive UART and with
no inbound byte, is on the wire whole when the send returns to the operation below it. A UART that is ready when `end_send`
is entered takes the first byte at once, so that `k`, the rounds still to come, is one less. The two ways a frame is
DROPPED: without the space the test asks for, the send returns, and nothing is written (R275); with a batch in flight when
it begins its own, it returns with that batch, its length and its owner as they were, and the context in `tx.rejected`
(R171, R172, R275). One arbiter call a step and the schedule are the model's own (log 5, log 6); the default codec, log 20. -/
def Obligations.SentFrameIsOnTheWire : Prop :=
  (∀ (s : State) (f : TxFrame) (l : List Activation) (rest : List Event), s.fault = none → s.params.codec = .min →
    (s.port.context s.port.running).stack = .transmit (.spaceTest f) :: l → s.port.tx.inProgress = false →
    s.port.tx.rejectedM = false → s.port.tx.rejectedI = false → s.port.rxBusy = true → s.port.uart.rxne = false →
    f.payload.length + 11 ≤ s.params.txCap → (minWire s.params.crc32 f).length ≤ s.params.txCap →
    let n := (minWire s.params.crc32 f).length
    let k := if s.port.uart.txe then n - 1 else n
    s.schedule = List.replicate (n + 3) .advance ++ batchEvents k ++ rest →
    ∃ t, runSteps (n + 3 + (2 * k + 2)) s = .next t ∧
      t.port.uart.sent = s.port.uart.sent ++ minWire s.params.crc32 f ∧ t.schedule = rest ∧
      t.port.tx.inProgress = false ∧ t.port.rxBusy = true ∧
      (t.port.context s.port.running).stack = l.dropWhile Activation.isAwaiting) ∧
  (∀ (s : State) (f : TxFrame) (l : List Activation), s.fault = none → s.schedule = [] →
    (s.port.context s.port.running).stack = .transmit (.spaceTest f) :: l →
    let space := if s.port.tx.inProgress then s.params.txCap - s.port.tx.len else s.params.txCap
    (s.params.codec = .min → wireOverhead s.params = 11) ∧
    step s = .next ((s.setCtx s.port.running).setStack (
      if space < f.payload.length + wireOverhead s.params then l.dropWhile Activation.isAwaiting
      else .transmit (.beginBatch f) :: l))) ∧
  ∀ (s : State) (f : TxFrame) (l : List Activation), s.fault = none → s.schedule = [] →
    (s.port.context s.port.running).stack = .transmit (.beginBatch f) :: l → s.port.tx.inProgress = true →
    ∃ x, step s = .next (((s.setCtx s.port.running).setTx x).setStack (l.dropWhile Activation.isAwaiting)) ∧
      x.buf = s.port.tx.buf ∧ x.inProgress = true ∧ x.owner = s.port.tx.owner ∧
      ∀ c, x.rejected c = (s.port.tx.rejected c || decide (c = s.port.running))

/-! ### The dispatcher (42_dispatcher) -/

/-- reply hands the frame to the transport: UNREL, and REL under REL_ONCE, starts the transmit sequence of 43 R275 in the
unreliable layout; under the OPEN relation a REL frame is queued. The OPEN relation transmits a queued frame whole, in the
reliable layout, whenever it chooses while the running context is inside a send of a REL frame, a poll or housekeeping, at
whatever depth, and has no other frame partly in the batch, as often as it likes; an acknowledged frame leaves the queue (R14, R221, R272; the events and the points
are the model's, log 18). -/
def Obligations.ReplyHandsFrameToTransport : Prop :=
  (∀ (s : State) (id : FrameId) (p : List Byte) (mode : SendMode),
    ((mode = .unrel ∨ s.params.reliability = .relOnce) →
      exec (.reply id p mode) s =
        .next (s.setStack (.transmit (.spaceTest ⟨id, none, p⟩) :: .awaiting .reply :: s.stack))) ∧
    (mode = .rel → s.params.reliability = .openRel →
      exec (.reply id p mode) s =
        .next ((s.setTransport { s.port.transport with relQueue := s.port.transport.relQueue ++ [⟨id, p⟩] }).setStack
          (.relSent :: .awaiting .reply :: s.stack)))) ∧
  (∀ (s : State) (k : Nat) (seq : Byte) (f : Frame) (l : List Activation) (rest : List Event),
    s.fault = none → s.schedule = .relTransmit k seq :: rest → s.params.reliability = .openRel →
    s.port.transport.relQueue[k]? = some f → (s.port.context s.port.running).stack = l →
    (∃ a ∈ l, a = .relSent ∨ a = .housekeeping ∨ a = .delivered ∨ ∃ b, a = .poll b) →
    (∀ a ∈ l, a.holdsBatch = false) →
    step s = .next (((s.setSchedule rest).setCtx s.port.running).setStack
      (.transmit (.spaceTest ⟨f.id, some seq, f.payload⟩) :: l))) ∧
  ∀ (s : State) (k : Nat) (rest : List Event), s.fault = none → s.schedule = .relAck k :: rest →
    step s = .next ((s.setSchedule rest).setTransport
      { s.port.transport with relQueue := s.port.transport.relQueue.eraseIdx k })

/-- dispatch runs the handler that decoding its id selects, waiting below it (R101 to R105, R220). -/
def Obligations.DispatchRunsDecodedHandler : Prop :=
  ∀ (s : State) (id : FrameId) (p : List Byte),
    (∃ t, exec (.dispatch id p) s = .next t) ∧
    exec (.dispatch id p) s =
      exec (decodeId s.params.idReset id p) (s.setStack (.awaiting .dispatch :: s.stack))

/-- Ping replies with an empty Pong, UNREL; GetCapabilities with its ten bytes, REL. No other state is written (R223,
R233). -/
def Obligations.PingAndCapabilitiesReply : Prop :=
  ∀ (s : State) (p : List Byte),
    exec (.ping p) s = .next (s.sendReply 0x02 [] .unrel) ∧
    exec (.getCapabilities p) s = .next (s.sendReply 0x31
      [s.params.capDeviceType, s.params.capFwMajor, s.params.capFwMinor, s.params.capFwPatch, 0x1E, 0x14, 0x08,
       s.params.capHbridgeCount, s.params.capCanCount, 0x00] .rel)

/-- Reset replies Ack of its id, UNREL, first; when that reply has returned, the next step resets the system (R224, R342; the
step's extent is the model's, log 6). -/
def Obligations.ResetAcksThenResets : Prop :=
  ∀ (s : State) (p : List Byte),
    exec (.reset p) s =
      .next ((s.setStack (.sysReset :: s.stack)).sendReply 0x3E [idByte s.params.idReset] .unrel) ∧
    ∀ l, s.fault = none → s.schedule = [] → (s.port.context s.port.running).stack = .sysReset :: l →
      step s = .next (systemReset (s.setCtx s.port.running))

/-- R440, R441, R443: after a system reset both contexts are idle, no batch is in flight, the ring is empty, the guard is
free, the stream register and the parser are at their reset values, a byte held in the UART is lost (R224), and the blob is
what the flash record holds; the flash, the clock and the fault are kept. The model's own choices: the UART's flags after
the reset (log 8), that the driver, the executor, the ADC and the digital inputs keep their values (log 10), and that the
records of bytes and requests stay (log 24). -/
def Obligations.SystemResetValues : Prop :=
  ∀ s : State,
    let t := systemReset s
    t.port.ctxM.stack = [] ∧ t.port.ctxI.stack = [] ∧ t.port.iActive = false ∧
    t.port.tx.len = 0 ∧ t.port.tx.inProgress = false ∧ t.port.tx.owner = none ∧ (∀ c, t.port.tx.rejected c = false) ∧
    t.port.rx.head = 0 ∧ t.port.rx.tail = 0 ∧ t.port.rx.buf.length = s.params.rxCap ∧ t.port.rxBusy = false ∧
    t.port.stream = { active := false, periodMs := 100, lastEmitTick := 0, counter := 0 } ∧
    t.port.transport.rx.st = .sof ∧ t.port.transport.rx.seen = 0 ∧ t.port.transport.relQueue = [] ∧
    t.blob = s.storedBlob.getD [] ∧ t.fault = s.fault ∧
    t.flash = s.flash ∧ t.clock = s.clock ∧
    t.port.uart = { txe := true, tc := true, rxne := false, rdr := 0, sent := s.port.uart.sent } ∧ t.driver = s.driver ∧
    t.channels = s.channels ∧ t.execStore = s.execStore ∧ t.adc = s.adc ∧ t.din = s.din ∧ t.params = s.params

/-- GetConfig without a blob replies the no-blob chunk; with one it sends chunk 0 and leaves the loop below the reply when
more follow; when the reply of a chunk has returned, the next step sends the next one. No other state is written (R225; the step's
extent is the model's, log 6). -/
def Obligations.GetConfigSendsChunks : Prop :=
  (∀ (s : State) (p : List Byte),
    (s.blob = [] → exec (.getConfig p) s = .next (s.sendReply 0x11 [0x00, 0x00, 0x01, 0x00, 0x00, 0x00] .unrel)) ∧
    (s.blob ≠ [] →
      exec (.getConfig p) s = .next (
        (if 251 < s.blob.length then s.setStack (.getConfig 1 (State.chunkTotal s.blob) :: s.stack) else s).sendReply
          0x11 (u16le 0 ++ u16le (BitVec.ofNat 16 (State.chunkTotal s.blob)) ++ s.blob.take 251) .unrel))) ∧
  ∀ (s : State) (k total : Nat) (l : List Activation), s.fault = none → s.schedule = [] →
    (s.port.context s.port.running).stack = .getConfig k total :: l →
    step s = .next (((s.setCtx s.port.running).setStack
      (if k + 1 < total then .getConfig (k + 1) total :: l else l)).sendReply 0x11
        (u16le (BitVec.ofNat 16 k) ++ u16le (BitVec.ofNat 16 total) ++ (s.blob.drop (251 * k)).take 251) .unrel)

/-- R225: a blob of 1 to 2048 bytes makes `ceil(len / 251)` chunks, 1 to 9; no chunk is empty or over 255 payload bytes;
the chunks in order are the blob. -/
def Obligations.ChunksRebuildTheBlob : Prop :=
  ∀ b : List Byte, 0 < b.length → b.length ≤ 2048 →
    1 ≤ State.chunkTotal b ∧ State.chunkTotal b ≤ 9 ∧
    (∀ k < State.chunkTotal b, 0 < (State.chunkPart b k).length ∧
      (State.chunkPayload b k (State.chunkTotal b)).length ≤ 255) ∧
    (List.range (State.chunkTotal b)).flatMap (State.chunkPart b) = b

/-- LoadBinary. Fewer than 4 bytes: NACK [18 02], nothing else. Else the data stands at base `251·chunk_idx`, cut at the
capacity; every byte of the blob outside it stays (chunk 0 starts an empty blob); the length is R341's maximum; the reply
carries the executor's count. Bytes below the base that no chunk wrote are free (log 15), drawing at most one value
(R226, R341). Another instance of `Exec.loadBinary` writes the blob and the executor's own state, nothing else, and the
reply has the same form (R340, log 16). -/
def Obligations.LoadBinaryWritesChunk : Prop :=
  (∀ (s : State) (p : List Byte), p.length < 4 →
    exec (.loadBinary p) s = .next (s.sendReply 0x3F [0x18, 0x02] .rel)) ∧
  (∀ (s : State) (p : List Byte) (k : Nat), 4 ≤ p.length → s.params.exec = .other k →
    ∃ (e : Config.ExecState) (n : U16), (s.blob.length ≤ 2048 → e.blob.length ≤ 2048) ∧
      exec (.loadBinary p) s = .next ((s.setExec e).sendReply 0x19 ([0x01, 0x00] ++ u16le n) .unrel)) ∧
  ∀ (s : State) (c0 c1 t0 t1 : Byte) (bytes : List Byte), s.params.exec = .blobStore → s.blob.length ≤ 2048 →
    let ci : U16 := c1 ++ c0
    let tc : U16 := t1 ++ t0
    let old := if ci = 0 then [] else s.blob
    let base := 251 * ci.toNat
    ∃ (new : List Byte) (n : Nat), (n = s.fresh ∨ n = s.fresh + 1) ∧
      exec (.loadBinary (c0 :: c1 :: t0 :: t1 :: bytes)) s =
        .next (((s.setBlob new).setFresh n).sendReply 0x19 ([0x01, 0x00] ++ u16le (Config.execChannels new ci tc))
          .unrel) ∧
      new.length = max old.length (min (base + bytes.length) 2048) ∧
      (∀ j, base ≤ j → j < base + bytes.length → j < 2048 → new[j]? = bytes[j - base]?) ∧
      (∀ j, j < old.length → (j < base ∨ base + bytes.length ≤ j) → new[j]? = old[j]?)

/-- R340 (b), (c): every instance of LoadBinary keeps the blob within 2048 bytes, and applying a payload twice leaves what
applying it once leaves; in the default instance the blob's length is the maximum R341 gives, and both times report the
same count. -/
def Obligations.LoadBinaryBoundedAndRepeatable : Prop :=
  ∀ (s : State) (p : List Byte) (c : Chunk), s.blob.length ≤ 2048 →
    let t := (s.execLoad p c).1
    t.blob.length ≤ 2048 ∧ (t.execLoad p c).1 = t ∧
    (s.params.exec = .blobStore →
      t.blob.length = max (if c.chunkIdx = 0 then 0 else s.blob.length)
        (min (251 * c.chunkIdx.toNat + c.bytes.length) 2048) ∧
      (t.execLoad p c).2 = (s.execLoad p c).2)

/-- StartStream: the rate is the two payload bytes little-endian, 10 when absent or 0, at most 100; the period is
`1000 div` it; the stream is active from now; the counter stays; the reply is Ack [20] (R230). -/
def Obligations.StartStreamSetsPeriod : Prop :=
  ∀ (s : State) (p : List Byte),
    let raw : Nat := if 2 ≤ p.length then (p.getD 0 0).toNat + 256 * (p.getD 1 0).toNat else 0
    let rate := if raw = 0 then 10 else min raw 100
    ∃ st : Stream, st.periodMs.toNat = 1000 / rate ∧ st.active = true ∧ st.lastEmitTick = s.clock ∧
      st.counter = s.port.stream.counter ∧ 10 ≤ st.periodMs.toNat ∧ st.periodMs.toNat ≤ 1000 ∧
      exec (.startStream p) s = .next ((s.setStream st).sendReply 0x3E [0x20] .rel)

/-- StopStream clears `active`, keeps the other stream fields, and replies Ack [21] (R231). -/
def Obligations.StopStreamClearsActive : Prop :=
  ∀ (s : State) (p : List Byte),
    exec (.stopStream p) s = .next ((s.setStream { s.port.stream with active := false }).sendReply 0x3E [0x21] .rel)

/-- SetOutput with fewer than 2 bytes replies NACK [28 02] and calls no driver; else the driver gets the request, only the
raw state of the channel it names may change (to what the driver makes of it, free: log 17), and the reply echoes both
bytes (R232, R339, R401). -/
def Obligations.SetOutputRequestsChannel : Prop :=
  ∀ (s : State) (p : List Byte),
    (p.length < 2 → exec (.setOutput p) s = .next (s.sendReply 0x3F [0x28, 0x02] .rel)) ∧
    (∀ ch st more, p = ch :: st :: more →
      ∃ d : Driver, d.requests = s.driver.requests ++ [(ch, st)] ∧
        (∀ k : Fin Config.nOut, k.val ≠ ch.toNat → d.state[k] = s.driver.state[k]) ∧
        exec (.setOutput p) s =
          .next (((s.setDriver d).setFresh (s.fresh + 1)).sendReply 0x29 [ch, st] .rel))

/-- Every id without a request handler, the reserved and the reply ids among them, is answered with NACK [id, 0x01], and
nothing else happens (R103, R104, R234). -/
def Obligations.UnrecognizedIdsAreNacked : Prop :=
  ∀ (s : State) (id : FrameId) (p : List Byte),
    exec (.unrecognized id p) s = .next (s.sendReply 0x3F [idByte id, 0x01] .rel) ∧
    exec (.loadConfigReserved p) s = .next (s.sendReply 0x3F [0x12, 0x01] .rel) ∧
    exec (.configAckReserved p) s = .next (s.sendReply 0x3F [0x13, 0x01] .rel) ∧
    exec (.pong p) s = .next (s.sendReply 0x3F [0x02, 0x01] .rel) ∧
    exec (.configData p) s = .next (s.sendReply 0x3F [0x11, 0x01] .rel) ∧
    exec (.flashAck p) s = .next (s.sendReply 0x3F [0x15, 0x01] .rel) ∧
    exec (.clearConfigAck p) s = .next (s.sendReply 0x3F [0x17, 0x01] .rel) ∧
    exec (.binaryAck p) s = .next (s.sendReply 0x3F [0x19, 0x01] .rel) ∧
    exec (.data p) s = .next (s.sendReply 0x3F [0x22, 0x01] .rel) ∧
    exec (.outputAck p) s = .next (s.sendReply 0x3F [0x29, 0x01] .rel) ∧
    exec (.capabilities p) s = .next (s.sendReply 0x3F [0x31, 0x01] .rel) ∧
    exec (.ack p) s = .next (s.sendReply 0x3F [0x3E, 0x01] .rel) ∧
    exec (.nack p) s = .next (s.sendReply 0x3F [0x3F, 0x01] .rel)

/-! ### The store (45 R330 to R337) -/

/-- SaveConfig of a blob of 1 to 2048 bytes on a healthy flash replies FlashAck [01] and leaves a record from which the
next boot loads the same blob (R228, R333, R334, R337). The record reads byte for byte as R331 lays it out: the magic
`46 4E 4F 43`, the size and the blob's CRC-16, both little-endian, the blob, and FLASH_PAD up to the word (R72, R76, R331,
R336). The flash outcomes are scripted (log 12). -/
def Obligations.SaveConfigRoundTrip : Prop :=
  ∀ (s : State) (p : List Byte) (es : List Config.EraseOutcome) (ps : List Bool), 0 < s.blob.length →
    s.blob.length ≤ 2048 → s.flash.ok s.params → s.flash.eraseScript = .done :: es →
    s.flash.programScript = List.replicate (2 + (s.blob.length + 3) / 4) true ++ ps →
    ∃ u : State, exec (.saveConfig p) s = .next (u.sendReply 0x15 [0x01] .rel) ∧
      u.port = s.port ∧ u.blob = s.blob ∧ u.wdt = 0 ∧ u.storedBlob = some s.blob ∧ (systemReset u).blob = s.blob ∧
      u.flashBytes s.params.recordAddr (8 + 4 * ((s.blob.length + 3) / 4)) =
        [0x46, 0x4E, 0x4F, 0x43,
          BitVec.ofNat 8 s.blob.length, BitVec.ofNat 8 (s.blob.length / 256),
          BitVec.ofNat 8 (crc16 s.blob).toNat, BitVec.ofNat 8 ((crc16 s.blob).toNat / 256)] ++ s.blob ++
        List.replicate ((4 - s.blob.length % 4) % 4) s.params.flashPad

/-- SaveConfig that fails replies FlashAck [00] and keeps the blob: with an empty blob, or one over 2048 bytes, the flash
device and the watchdog are not called at all (R332); with a failed erase no word is programmed; with a failed program call
no later word is programmed, and what lies behind the failed word in the sector stays erased (R333, D51). A watchdog that
expires inside the erase resets the system instead: both contexts are idle, and there is no reply (R338, R440). The flash
outcomes are scripted (log 12). -/
def Obligations.SaveConfigFailures : Prop :=
  ∀ (s : State) (p : List Byte),
    (s.blob = [] ∨ 2048 < s.blob.length → exec (.saveConfig p) s = .next (s.sendReply 0x15 [0x00] .rel)) ∧
    (∀ es, 0 < s.blob.length → s.blob.length ≤ 2048 → s.flash.eraseScript = .failed :: es →
      ∃ u : State, exec (.saveConfig p) s = .next (u.sendReply 0x15 [0x00] .rel) ∧ u.port = s.port ∧
        u.blob = s.blob ∧ u.flash.programScript = s.flash.programScript ∧ u.flash.eraseScript = es) ∧
    (∀ es ps k, 0 < s.blob.length → s.blob.length ≤ 2048 → s.flash.ok s.params → s.flash.eraseScript = .done :: es →
      k < 2 + (s.blob.length + 3) / 4 → s.flash.programScript = List.replicate k true ++ false :: ps →
      ∃ u : State, exec (.saveConfig p) s = .next (u.sendReply 0x15 [0x00] .rel) ∧ u.port = s.port ∧
        u.blob = s.blob ∧ u.flash.programScript = ps ∧
        ∀ a, s.params.recordAddr + 4 * (k + 1) ≤ a → a < s.params.sectorBase + s.params.sectorSize →
          u.flashRead a = s.params.flashErased) ∧
    (∀ es, 0 < s.blob.length → s.blob.length ≤ 2048 → s.flash.eraseScript = .expired :: es →
      ∃ u t : State, exec (.saveConfig p) s = .next t ∧ t = systemReset u ∧ u.port = s.port ∧
        u.flash.eraseScript = es ∧ u.flash.programScript = s.flash.programScript ∧
        t.port.ctxM = Context.reset ∧ t.port.ctxI = Context.reset ∧ t.port.uart.sent = s.port.uart.sent)

/-- Only SaveConfig and ClearConfig touch the flash, and only inside FLASH_SECTOR: every other instruction leaves every
byte as it reads, and those two leave every byte outside the sector (R79, R330, R333, R335). -/
def Obligations.FlashFrame : Prop :=
  ∀ (s t : State) (i : Instr) (a : Nat), s.flash.ok s.params → exec i s = .next t →
    (t.flashRead a = s.flashRead a) ∨
    ((s.params.sectorBase ≤ a ∧ a < s.params.sectorBase + s.params.sectorSize) ∧
      ((∃ p, i = .saveConfig p) ∨ (∃ p, i = .clearConfig p) ∨ (∃ p, i = .dispatch 0x14 p) ∨
        ∃ p, i = .dispatch 0x16 p))

/-- ClearConfig, unless the watchdog expires inside its erase, empties the blob and replies [01] whatever the erase gave;
after an erase that succeeded every byte of the sector reads as erased and a boot finds no record (R229, R335, R337). A
watchdog that expires inside the erase resets the system instead: both contexts are idle, and there is no reply (R338,
R440). -/
def Obligations.ClearConfigErases : Prop :=
  (∀ (s : State) (p : List Byte), s.nextErase = .expired →
    ∃ u t : State, exec (.clearConfig p) s = .next t ∧ t = systemReset u ∧ u.port = s.port ∧
      t.port.ctxM = Context.reset ∧ t.port.ctxI = Context.reset ∧ t.port.uart.sent = s.port.uart.sent) ∧
  ∀ (s : State) (p : List Byte), s.nextErase ≠ .expired →
    ∃ u : State, exec (.clearConfig p) s = .next (u.sendReply 0x17 [0x01] .rel) ∧ u.port = s.port ∧ u.blob = [] ∧ u.wdt = 0 ∧
      (s.nextErase = .done →
        (∀ a, s.params.sectorBase ≤ a → a < s.params.sectorBase + s.params.sectorSize →
          u.flashRead a = s.params.flashErased) ∧
        u.storedBlob = none ∧ (systemReset u).blob = [])

/-- R337: one corrupted byte among a record's data makes it untrusted: the next load finds no configuration. -/
def Obligations.CorruptRecordIsAbsent : Prop :=
  ∀ (s : State) (l : List Byte) (j : Nat) (b : Byte), s.flash.ok s.params → s.storedBlob = some l →
    j < l.length → l[j]? ≠ some b →
    let t := s.setFlash { s.flash with
      cells := Memory.write s.params.flashErased s.flash.cells (s.params.recordAddr + 8 + j) b }
    t.storedBlob = none ∧ t.storeLoad = (t.setBlob [], false)

/-- R338: a watchdog whose period passes without a refresh resets the system; a shorter time only advances the clock and
the watchdog's count (the count is the model's, log 11). -/
def Obligations.WatchdogExpires : Prop :=
  ∀ (s : State) (ms : Nat) (rest : List Event), s.fault = none → s.schedule = .elapse ms :: rest →
    let t := { s.setSchedule rest with clock := s.clock + BitVec.ofNat 32 ms, wdt := s.wdt + ms }
    step s = .next (if s.wdt + ms < s.params.wdtTimeoutMs then t else systemReset t)

/-! ### The tick and the telemetry (44, 45 R350 to R354) -/

/-- tick with the guard held is SKIPPED and changes nothing but its result; else it takes the guard and enters
housekeeping, the decision waiting below. A housekeeping that meets no other call inside the transport returns to what waits
below it, the tick's decision, and changes nothing else (R310, D55; what the OPEN relation transmits inside it comes by its
own event, log 18). -/
def Obligations.TickSkipsOrStarts : Prop :=
  (∀ s : State,
    (s.port.rxBusy = true → exec .tick s = .next (s.setRet .skipped)) ∧
    (s.port.rxBusy = false →
      exec .tick s = .next (((s.setRxBusy true).setRet .nothing).setStack
        (.housekeeping :: .tick .decide :: s.stack)))) ∧
  ∀ (s : State) (l : List Activation), s.fault = none → s.schedule = [] →
    (s.port.context s.port.running).stack = .housekeeping :: l → l.all (fun a => !a.inTransport) = true →
    (s.port.context s.port.running.other).stack.all (fun a => !a.inTransport) = true →
    step s = .next ((s.setCtx s.port.running).setStack (l.dropWhile Activation.isAwaiting)) ∧
    (l.head? = some (.tick .decide) → l.dropWhile Activation.isAwaiting = l)

/-- The tick's decision (R310, R311, R314): a stream that is active and whose last emission lies at least a period back,
modulo 2^32, becomes due: the last emission is now, the counter advances by one modulo 2^32, and the snapshot to be
built carries the value before; else the stream register stays and the drain follows. -/
def Obligations.TickDecidesEmission : Prop :=
  ∀ (s : State) (l : List Activation), s.fault = none → s.schedule = [] →
    (s.port.context s.port.running).stack = .tick .decide :: l →
    let st := s.port.stream
    let due := st.active = true ∧ st.periodMs.toNat ≤ (s.clock.toNat + 2 ^ 32 - st.lastEmitTick.toNat) % 2 ^ 32
    (due → ∃ t, step s = .next t ∧
      t.port.stream = { st with lastEmitTick := s.clock, counter := st.counter + 1 } ∧
      (t.port.context s.port.running).stack = .tick (.emit st.counter s.clock) :: l ∧
      t.port.rxBusy = s.port.rxBusy ∧ t.blob = s.blob ∧ t.flash = s.flash) ∧
    (¬ due → ∃ t, step s = .next t ∧ t.port.stream = st ∧
      (t.port.context s.port.running).stack = .tick .drain :: l ∧
      t.port.rxBusy = s.port.rxBusy ∧ t.blob = s.blob ∧ t.flash = s.flash)

/-- The emission: the snapshot of that moment goes out as one UNREL frame 0x22, and the drain follows (R310, R313). That
the snapshot is sampled in one step is the model's choice (log 32). -/
def Obligations.TickEmitsSnapshot : Prop :=
  ∀ (s : State) (k now : U32) (l : List Activation), s.fault = none → s.schedule = [] →
    (s.port.context s.port.running).stack = .tick (.emit k now) :: l →
    step s = .next ((s.setCtx s.port.running).setStack
      (.transmit (.spaceTest ⟨0x22, none, s.snapshot k now⟩) :: .tick .drain :: l))

/-- R353: the snapshot has `106 + 6·min(V, 15)` bytes, V the channel count modulo 2^16: at most 196. -/
def Obligations.SnapshotLength : Prop :=
  ∀ (s : State) (k now : U32),
    (s.snapshot k now).length = 106 + 6 * min (s.channels.length % 2 ^ 16) 15 ∧ (s.snapshot k now).length ≤ 196

/-- R350: the snapshot's fields at their offsets: counter, timestamp, outputs, digital mask, uptime, both counts, and the
entries in index order; the reserved bytes are 0; nothing else follows. -/
def Obligations.SnapshotFields : Prop :=
  ∀ (s : State) (k now : U32),
    let snap := s.snapshot k now
    snap.length = 106 + 6 * min (s.channels.length % 2 ^ 16) 15 ∧
    rd32le snap 0 = k ∧ rd32le snap 4 = now ∧
    (∀ i : Fin Config.nOut, snap[8 + i.val]? = some s.driver.state[i]) ∧
    (∀ i : Fin Config.nAn, rd16le snap (38 + 2 * i.val) = s.adc[i]) ∧
    (∀ i : Fin Config.nDin, (snap.getD 78 0).getLsbD i.val = s.din[i]) ∧
    (rd32le snap 79).toNat = now.toNat / 1000 ∧
    (snap.drop 83).take 8 = List.replicate 8 0 ∧
    rd16le snap 91 = BitVec.ofNat 16 s.channels.length ∧
    (snap.drop 93).take 11 = List.replicate 11 0 ∧
    rd16le snap 104 = BitVec.ofNat 16 s.channels.length ∧
    (∀ (j : Nat) (id : U16) (v : U32), j < s.channels.length % 2 ^ 16 → j < 15 → s.channels[j]? = some (id, v) →
      rd16le snap (106 + 6 * j) = id ∧ rd32le snap (106 + 6 * j + 2) = v)
end

