-- ==== Sys2Proof/Laws/Codec.lean ====
section
/-! SUPPORT. What the transport's codec can do, whichever instance it is (43 R270, R271), and what the OPEN reliability
layer can. -/

namespace Sys2Proof.Machine

/-- One received byte changes the parser alone. -/
theorem receive_frame (p : Config.Params) (t : Transport) (b : Byte) :
    ∃ r o, (t.receive p b).1 = { t with rx := r, rxOther := o } := by
  unfold Transport.receive
  split
  · exact ⟨_, t.rxOther, rfl⟩
  · exact ⟨t.rx, _, rfl⟩

/-- Going on after a delivery changes the parser alone. -/
theorem delivered_frame (p : Config.Params) (t : Transport) :
    ∃ r o, t.delivered p = { t with rx := r, rxOther := o } := by
  unfold Transport.delivered
  split
  · exact ⟨_, t.rxOther, rfl⟩
  · exact ⟨t.rx, _, rfl⟩

/-- One received byte keeps the receiver's bounds. -/
theorem receive_ok (p : Config.Params) (t : Transport) (b : Byte) (h : t.rx.ok) : (t.receive p b).1.rx.ok := by
  unfold Transport.receive
  split
  · exact minCodec.receive_ok _ _ b h
  · exact h

/-- Going on after a delivery keeps the receiver's bounds. -/
theorem delivered_ok (p : Config.Params) (t : Transport) (h : t.rx.ok) : (t.delivered p).rx.ok := by
  unfold Transport.delivered
  split
  · exact minCodec.delivered_ok _ h
  · exact h

/-- A delivered payload has at most 255 bytes (R271 (a)). -/
theorem receive_length (p : Config.Params) (t : Transport) (b : Byte) (h : t.rx.ok) (d : Delivery)
    (hd : (t.receive p b).2 = some d) : d.payload.length ≤ 255 := by
  unfold Transport.receive at hd
  split at hd
  · exact minCodec.payload_le _ _ b d h hd
  · exact (otherCodec _).payload_le _ _ b d trivial hd

/-- What a transmission event of the OPEN reliability layer can do: nothing, or start the transmit sequence of a queued
frame on a stack that is inside a poll, housekeeping or a REL send and has no frame partly in the batch (R272). -/
theorem relTransmit_cases (k : Nat) (seq : Byte) (s : State) :
    s.relTransmit k seq = s ∨
    ∃ f, s.params.reliability = .openRel ∧ s.port.transport.relQueue[k]? = some f ∧
      s.stack.any Activation.relChance = true ∧ s.stack.all (fun a => !a.holdsBatch) = true ∧
      s.relTransmit k seq = s.push (.transmit (.spaceTest ⟨f.id, some seq, f.payload⟩)) := by
  unfold State.relTransmit
  split
  · rename_i h1 h2 h3
    obtain ⟨h4, h5⟩ := Bool.and_eq_true_iff.1 h2
    exact .inr ⟨_, h1, h3, h4, h5, rfl⟩
  · exact .inl rfl

end Sys2Proof.Machine
end

