-- ==== Sys2Proof/Laws/Memory.lean ====
section
/-! SUPPORT. The laws of the flash sector's list of cells: every operation keeps the canonical form, and what a read gives
after each. -/

namespace Sys2Proof.Machine.Memory

variable {d : Byte} {m : List Host.Cell}

theorem wf_cons {k : Nat} {v : Byte} :
    wf d ((k, v) :: m) = true ↔ v ≠ d ∧ (∀ c ∈ m, k < c.1) ∧ wf d m = true := by
  simp [wf, and_assoc]

/-- Below the first cell every address reads as the erased byte. -/
theorem read_below {a : Nat} (h : ∀ c ∈ m, a < c.1) : read d m a = d := by
  induction m with
  | nil => rfl
  | cons c m ih =>
    obtain ⟨k, v⟩ := c
    have hk : a < k := h (k, v) (by simp)
    rw [read, if_neg (by omega)]
    exact ih fun c hc => h c (by simp [hc])

/-- A write adds no address but its own. -/
theorem mem_write {a : Nat} {b : Byte} {c : Host.Cell} (h : c ∈ write d m a b) : c ∈ m ∨ c.1 = a := by
  induction m with
  | nil =>
    rw [write] at h
    split at h <;> simp_all
  | cons x m ih =>
    obtain ⟨k, v⟩ := x
    rw [write] at h
    split at h
    · rcases List.mem_cons.1 h with rfl | h
      · simp
      · rcases ih h with h | h <;> simp [h]
    · split at h
      · split at h
        · simp [h]
        · rcases List.mem_cons.1 h with rfl | h <;> simp_all
      · split at h
        · exact .inl h
        · rcases List.mem_cons.1 h with rfl | h
          · simp
          · exact .inl h

/-- A write keeps the canonical form. -/
theorem wf_write {a : Nat} {b : Byte} (h : wf d m = true) : wf d (write d m a b) = true := by
  induction m with
  | nil => rw [write]; split <;> simp_all [wf]
  | cons x m ih =>
    obtain ⟨k, v⟩ := x
    obtain ⟨hv, hk, hm⟩ := wf_cons.1 h
    rw [write]
    split
    · refine wf_cons.2 ⟨hv, fun c hc => ?_, ih hm⟩
      rcases mem_write hc with hc | rfl
      · exact hk c hc
      · assumption
    · split
      · subst_vars
        split
        · exact hm
        · exact wf_cons.2 ⟨by assumption, hk, hm⟩
      · split
        · exact h
        · refine wf_cons.2 ⟨by assumption, fun c hc => ?_, h⟩
          rcases List.mem_cons.1 hc with rfl | hc
          · show a < k; omega
          · have := hk c hc; omega

/-- Reading after a write: the byte written at its address, every other address as before. -/
theorem read_write {a k : Nat} {b : Byte} (h : wf d m = true) :
    read d (write d m a b) k = if k = a then b else read d m k := by
  induction m with
  | nil =>
    rw [write]
    split
    · subst_vars; simp [read]
    · simp [read, eq_comm]
  | cons x m ih =>
    obtain ⟨j, v⟩ := x
    obtain ⟨hv, hj, hm⟩ := wf_cons.1 h
    rw [write]
    split
    · rename_i hlt
      rw [read, ih hm, read]
      split <;> split <;> first | rfl | omega
    · split
      · rename_i hlt heq
        subst heq
        split
        · rename_i hb
          rw [read]
          by_cases hk : k = j
          · subst hk; rw [if_pos rfl, hb]; exact read_below hj
          · rw [if_neg hk, if_neg (Ne.symm hk)]
        · rw [read, read]
          by_cases hk : k = j
          · simp [hk]
          · rw [if_neg hk, if_neg (Ne.symm hk), if_neg (Ne.symm hk)]
      · rename_i hlt hne
        split
        · rename_i hb
          by_cases hk : k = a
          · subst hk
            rw [if_pos rfl, hb]
            refine read_below fun c hc => ?_
            rcases List.mem_cons.1 hc with rfl | hc
            · show k < j; omega
            · have := hj c hc; omega
          · rw [if_neg hk]
        · rw [read]
          by_cases hk : k = a
          · simp [hk]
          · rw [if_neg hk, if_neg (Ne.symm hk)]

/-- A run of writes keeps the canonical form. -/
theorem wf_writeBytes (l : List Byte) (a : Nat) (h : wf d m = true) : wf d (writeBytes d m a l) = true := by
  induction l generalizing m a with
  | nil => exact h
  | cons b bs ih => exact ih _ (wf_write h)

/-- A run of writes adds addresses of its range only. -/
theorem mem_writeBytes {l : List Byte} {a : Nat} {c : Host.Cell} (h : c ∈ writeBytes d m a l) :
    c ∈ m ∨ a ≤ c.1 ∧ c.1 < a + l.length := by
  induction l generalizing m a with
  | nil => exact .inl h
  | cons b bs ih =>
    rcases ih h with h | h
    · rcases mem_write h with h | h
      · exact .inl h
      · right; simp only [List.length_cons]; omega
    · right; simp only [List.length_cons]; omega

/-- Reading after a run of writes. -/
theorem read_writeBytes (l : List Byte) (a k : Nat) (h : wf d m = true) :
    read d (writeBytes d m a l) k = if a ≤ k ∧ k < a + l.length then l.getD (k - a) 0 else read d m k := by
  induction l generalizing m a with
  | nil => rw [writeBytes, if_neg (by simp)]
  | cons b bs ih =>
    rw [writeBytes, ih _ (wf_write h), read_write h]
    simp only [List.length_cons]
    by_cases h1 : a + 1 ≤ k ∧ k < a + 1 + bs.length
    · rw [if_pos h1, if_pos (by omega), show k - a = (k - (a + 1)) + 1 by omega]; rfl
    · rw [if_neg h1]
      by_cases h2 : k = a
      · subst h2; simp
      · rw [if_neg h2, if_neg (by omega)]

theorem wf_filter (f : Host.Cell → Bool) (h : wf d m = true) : wf d (m.filter f) = true := by
  induction m with
  | nil => rfl
  | cons x m ih =>
    obtain ⟨k, v⟩ := x
    obtain ⟨hv, hk, hm⟩ := wf_cons.1 h
    rw [List.filter_cons]
    split
    · exact wf_cons.2 ⟨hv, fun c hc => hk c (List.mem_filter.1 hc).1, ih hm⟩
    · exact ih hm

/-- An erase keeps the canonical form. -/
theorem wf_erase (a n : Nat) (h : wf d m = true) : wf d (erase m a n) = true := wf_filter _ h

/-- Reading after an erase: its range reads as the erased byte, every other address as before. -/
theorem read_erase (a n k : Nat) :
    read d (erase m a n) k = if a ≤ k ∧ k < a + n then d else read d m k := by
  induction m with
  | nil => simp [erase, read]
  | cons x m ih =>
    obtain ⟨j, v⟩ := x
    unfold erase at ih ⊢
    rw [List.filter_cons]
    split
    · rename_i hj
      simp only [decide_eq_true_eq] at hj
      rw [read, ih, read]
      by_cases hk : j = k
      · subst hk; rw [if_pos rfl, if_neg (by omega), if_pos rfl]
      · rw [if_neg hk, if_neg hk]
    · rename_i hj
      simp only [decide_eq_true_eq] at hj
      rw [ih, read]
      by_cases hk : j = k
      · subst hk; rw [if_pos (by omega), if_pos (by omega)]
      · rw [if_neg hk]

/-- A scrambled range keeps the canonical form. -/
theorem wf_scramble (f : Nat → Byte → Byte) (a n : Nat) (h : wf d m = true) :
    wf d (scramble d f m a n) = true := by
  induction n generalizing m a with
  | zero => exact h
  | succ n ih => exact ih _ (wf_write h)

/-- Scrambling adds addresses of its range only. -/
theorem mem_scramble {f : Nat → Byte → Byte} {a n : Nat} {c : Host.Cell} (h : c ∈ scramble d f m a n) :
    c ∈ m ∨ a ≤ c.1 ∧ c.1 < a + n := by
  induction n generalizing m a with
  | zero => exact .inl h
  | succ n ih =>
    rcases ih h with h | h
    · rcases mem_write h with h | h
      · exact .inl h
      · right; omega
    · right; omega

/-- Reading outside a scrambled range. -/
theorem read_scramble_outside (f : Nat → Byte → Byte) (a n k : Nat) (h : wf d m = true)
    (hk : ¬(a ≤ k ∧ k < a + n)) : read d (scramble d f m a n) k = read d m k := by
  induction n generalizing m a with
  | zero => rfl
  | succ n ih =>
    rw [scramble, ih _ (wf_write h) (by omega), read_write h, if_neg (by omega)]

@[simp] theorem length_readBytes (a n : Nat) : (readBytes d m a n).length = n := by simp [readBytes]

end Sys2Proof.Machine.Memory
end

