-- ==== Sys2Proof/Laws/State.lean ====
section
/-! SUPPORT. One lemma per field per named update of the state, each true by rfl, so that no proof unfolds an update. -/

namespace Sys2Proof.Machine.State

variable (s : State)

/-! ### setTx -/

@[simp] theorem setTx_tx (x : TxBatch) : (s.setTx x).port.tx = x := rfl
@[simp] theorem setTx_rx (x : TxBatch) : (s.setTx x).port.rx = s.port.rx := rfl
@[simp] theorem setTx_rxBusy (x : TxBatch) : (s.setTx x).port.rxBusy = s.port.rxBusy := rfl
@[simp] theorem setTx_stream (x : TxBatch) : (s.setTx x).port.stream = s.port.stream := rfl
@[simp] theorem setTx_uart (x : TxBatch) : (s.setTx x).port.uart = s.port.uart := rfl
@[simp] theorem setTx_transport (x : TxBatch) : (s.setTx x).port.transport = s.port.transport := rfl
@[simp] theorem setTx_params (x : TxBatch) : (s.setTx x).params = s.params := rfl
@[simp] theorem setTx_others (x : TxBatch) : (s.setTx x).others = s.others := rfl
@[simp] theorem setTx_ctx (x : TxBatch) : (s.setTx x).ctx = s.ctx := rfl
@[simp] theorem setTx_blob (x : TxBatch) : (s.setTx x).blob = s.blob := rfl
@[simp] theorem setTx_flash (x : TxBatch) : (s.setTx x).flash = s.flash := rfl
@[simp] theorem setTx_driver (x : TxBatch) : (s.setTx x).driver = s.driver := rfl
@[simp] theorem setTx_channels (x : TxBatch) : (s.setTx x).channels = s.channels := rfl
@[simp] theorem setTx_execStore (x : TxBatch) : (s.setTx x).execStore = s.execStore := rfl
@[simp] theorem setTx_adc (x : TxBatch) : (s.setTx x).adc = s.adc := rfl
@[simp] theorem setTx_din (x : TxBatch) : (s.setTx x).din = s.din := rfl
@[simp] theorem setTx_clock (x : TxBatch) : (s.setTx x).clock = s.clock := rfl
@[simp] theorem setTx_wdt (x : TxBatch) : (s.setTx x).wdt = s.wdt := rfl
@[simp] theorem setTx_fault (x : TxBatch) : (s.setTx x).fault = s.fault := rfl
@[simp] theorem setTx_fresh (x : TxBatch) : (s.setTx x).fresh = s.fresh := rfl
@[simp] theorem setTx_schedule (x : TxBatch) : (s.setTx x).schedule = s.schedule := rfl
@[simp] theorem setTx_ctxM (x : TxBatch) : (s.setTx x).port.ctxM = s.port.ctxM := rfl
@[simp] theorem setTx_ctxI (x : TxBatch) : (s.setTx x).port.ctxI = s.port.ctxI := rfl
@[simp] theorem setTx_stack (x : TxBatch) : (s.setTx x).stack = s.stack := rfl
@[simp] theorem setTx_ret (x : TxBatch) : (s.setTx x).ret = s.ret := rfl

/-! ### setRx -/

@[simp] theorem setRx_tx (x : Ring) : (s.setRx x).port.tx = s.port.tx := rfl
@[simp] theorem setRx_rx (x : Ring) : (s.setRx x).port.rx = x := rfl
@[simp] theorem setRx_rxBusy (x : Ring) : (s.setRx x).port.rxBusy = s.port.rxBusy := rfl
@[simp] theorem setRx_stream (x : Ring) : (s.setRx x).port.stream = s.port.stream := rfl
@[simp] theorem setRx_uart (x : Ring) : (s.setRx x).port.uart = s.port.uart := rfl
@[simp] theorem setRx_transport (x : Ring) : (s.setRx x).port.transport = s.port.transport := rfl
@[simp] theorem setRx_params (x : Ring) : (s.setRx x).params = s.params := rfl
@[simp] theorem setRx_others (x : Ring) : (s.setRx x).others = s.others := rfl
@[simp] theorem setRx_ctx (x : Ring) : (s.setRx x).ctx = s.ctx := rfl
@[simp] theorem setRx_blob (x : Ring) : (s.setRx x).blob = s.blob := rfl
@[simp] theorem setRx_flash (x : Ring) : (s.setRx x).flash = s.flash := rfl
@[simp] theorem setRx_driver (x : Ring) : (s.setRx x).driver = s.driver := rfl
@[simp] theorem setRx_channels (x : Ring) : (s.setRx x).channels = s.channels := rfl
@[simp] theorem setRx_execStore (x : Ring) : (s.setRx x).execStore = s.execStore := rfl
@[simp] theorem setRx_adc (x : Ring) : (s.setRx x).adc = s.adc := rfl
@[simp] theorem setRx_din (x : Ring) : (s.setRx x).din = s.din := rfl
@[simp] theorem setRx_clock (x : Ring) : (s.setRx x).clock = s.clock := rfl
@[simp] theorem setRx_wdt (x : Ring) : (s.setRx x).wdt = s.wdt := rfl
@[simp] theorem setRx_fault (x : Ring) : (s.setRx x).fault = s.fault := rfl
@[simp] theorem setRx_fresh (x : Ring) : (s.setRx x).fresh = s.fresh := rfl
@[simp] theorem setRx_schedule (x : Ring) : (s.setRx x).schedule = s.schedule := rfl
@[simp] theorem setRx_ctxM (x : Ring) : (s.setRx x).port.ctxM = s.port.ctxM := rfl
@[simp] theorem setRx_ctxI (x : Ring) : (s.setRx x).port.ctxI = s.port.ctxI := rfl
@[simp] theorem setRx_stack (x : Ring) : (s.setRx x).stack = s.stack := rfl
@[simp] theorem setRx_ret (x : Ring) : (s.setRx x).ret = s.ret := rfl

/-! ### setRxBusy -/

@[simp] theorem setRxBusy_tx (x : Bool) : (s.setRxBusy x).port.tx = s.port.tx := rfl
@[simp] theorem setRxBusy_rx (x : Bool) : (s.setRxBusy x).port.rx = s.port.rx := rfl
@[simp] theorem setRxBusy_rxBusy (x : Bool) : (s.setRxBusy x).port.rxBusy = x := rfl
@[simp] theorem setRxBusy_stream (x : Bool) : (s.setRxBusy x).port.stream = s.port.stream := rfl
@[simp] theorem setRxBusy_uart (x : Bool) : (s.setRxBusy x).port.uart = s.port.uart := rfl
@[simp] theorem setRxBusy_transport (x : Bool) : (s.setRxBusy x).port.transport = s.port.transport := rfl
@[simp] theorem setRxBusy_params (x : Bool) : (s.setRxBusy x).params = s.params := rfl
@[simp] theorem setRxBusy_others (x : Bool) : (s.setRxBusy x).others = s.others := rfl
@[simp] theorem setRxBusy_ctx (x : Bool) : (s.setRxBusy x).ctx = s.ctx := rfl
@[simp] theorem setRxBusy_blob (x : Bool) : (s.setRxBusy x).blob = s.blob := rfl
@[simp] theorem setRxBusy_flash (x : Bool) : (s.setRxBusy x).flash = s.flash := rfl
@[simp] theorem setRxBusy_driver (x : Bool) : (s.setRxBusy x).driver = s.driver := rfl
@[simp] theorem setRxBusy_channels (x : Bool) : (s.setRxBusy x).channels = s.channels := rfl
@[simp] theorem setRxBusy_execStore (x : Bool) : (s.setRxBusy x).execStore = s.execStore := rfl
@[simp] theorem setRxBusy_adc (x : Bool) : (s.setRxBusy x).adc = s.adc := rfl
@[simp] theorem setRxBusy_din (x : Bool) : (s.setRxBusy x).din = s.din := rfl
@[simp] theorem setRxBusy_clock (x : Bool) : (s.setRxBusy x).clock = s.clock := rfl
@[simp] theorem setRxBusy_wdt (x : Bool) : (s.setRxBusy x).wdt = s.wdt := rfl
@[simp] theorem setRxBusy_fault (x : Bool) : (s.setRxBusy x).fault = s.fault := rfl
@[simp] theorem setRxBusy_fresh (x : Bool) : (s.setRxBusy x).fresh = s.fresh := rfl
@[simp] theorem setRxBusy_schedule (x : Bool) : (s.setRxBusy x).schedule = s.schedule := rfl
@[simp] theorem setRxBusy_ctxM (x : Bool) : (s.setRxBusy x).port.ctxM = s.port.ctxM := rfl
@[simp] theorem setRxBusy_ctxI (x : Bool) : (s.setRxBusy x).port.ctxI = s.port.ctxI := rfl
@[simp] theorem setRxBusy_stack (x : Bool) : (s.setRxBusy x).stack = s.stack := rfl
@[simp] theorem setRxBusy_ret (x : Bool) : (s.setRxBusy x).ret = s.ret := rfl

/-! ### setStream -/

@[simp] theorem setStream_tx (x : Stream) : (s.setStream x).port.tx = s.port.tx := rfl
@[simp] theorem setStream_rx (x : Stream) : (s.setStream x).port.rx = s.port.rx := rfl
@[simp] theorem setStream_rxBusy (x : Stream) : (s.setStream x).port.rxBusy = s.port.rxBusy := rfl
@[simp] theorem setStream_stream (x : Stream) : (s.setStream x).port.stream = x := rfl
@[simp] theorem setStream_uart (x : Stream) : (s.setStream x).port.uart = s.port.uart := rfl
@[simp] theorem setStream_transport (x : Stream) : (s.setStream x).port.transport = s.port.transport := rfl
@[simp] theorem setStream_params (x : Stream) : (s.setStream x).params = s.params := rfl
@[simp] theorem setStream_others (x : Stream) : (s.setStream x).others = s.others := rfl
@[simp] theorem setStream_ctx (x : Stream) : (s.setStream x).ctx = s.ctx := rfl
@[simp] theorem setStream_blob (x : Stream) : (s.setStream x).blob = s.blob := rfl
@[simp] theorem setStream_flash (x : Stream) : (s.setStream x).flash = s.flash := rfl
@[simp] theorem setStream_driver (x : Stream) : (s.setStream x).driver = s.driver := rfl
@[simp] theorem setStream_channels (x : Stream) : (s.setStream x).channels = s.channels := rfl
@[simp] theorem setStream_execStore (x : Stream) : (s.setStream x).execStore = s.execStore := rfl
@[simp] theorem setStream_adc (x : Stream) : (s.setStream x).adc = s.adc := rfl
@[simp] theorem setStream_din (x : Stream) : (s.setStream x).din = s.din := rfl
@[simp] theorem setStream_clock (x : Stream) : (s.setStream x).clock = s.clock := rfl
@[simp] theorem setStream_wdt (x : Stream) : (s.setStream x).wdt = s.wdt := rfl
@[simp] theorem setStream_fault (x : Stream) : (s.setStream x).fault = s.fault := rfl
@[simp] theorem setStream_fresh (x : Stream) : (s.setStream x).fresh = s.fresh := rfl
@[simp] theorem setStream_schedule (x : Stream) : (s.setStream x).schedule = s.schedule := rfl
@[simp] theorem setStream_ctxM (x : Stream) : (s.setStream x).port.ctxM = s.port.ctxM := rfl
@[simp] theorem setStream_ctxI (x : Stream) : (s.setStream x).port.ctxI = s.port.ctxI := rfl
@[simp] theorem setStream_stack (x : Stream) : (s.setStream x).stack = s.stack := rfl
@[simp] theorem setStream_ret (x : Stream) : (s.setStream x).ret = s.ret := rfl

/-! ### setUart -/

@[simp] theorem setUart_tx (x : Uart) : (s.setUart x).port.tx = s.port.tx := rfl
@[simp] theorem setUart_rx (x : Uart) : (s.setUart x).port.rx = s.port.rx := rfl
@[simp] theorem setUart_rxBusy (x : Uart) : (s.setUart x).port.rxBusy = s.port.rxBusy := rfl
@[simp] theorem setUart_stream (x : Uart) : (s.setUart x).port.stream = s.port.stream := rfl
@[simp] theorem setUart_uart (x : Uart) : (s.setUart x).port.uart = x := rfl
@[simp] theorem setUart_transport (x : Uart) : (s.setUart x).port.transport = s.port.transport := rfl
@[simp] theorem setUart_params (x : Uart) : (s.setUart x).params = s.params := rfl
@[simp] theorem setUart_others (x : Uart) : (s.setUart x).others = s.others := rfl
@[simp] theorem setUart_ctx (x : Uart) : (s.setUart x).ctx = s.ctx := rfl
@[simp] theorem setUart_blob (x : Uart) : (s.setUart x).blob = s.blob := rfl
@[simp] theorem setUart_flash (x : Uart) : (s.setUart x).flash = s.flash := rfl
@[simp] theorem setUart_driver (x : Uart) : (s.setUart x).driver = s.driver := rfl
@[simp] theorem setUart_channels (x : Uart) : (s.setUart x).channels = s.channels := rfl
@[simp] theorem setUart_execStore (x : Uart) : (s.setUart x).execStore = s.execStore := rfl
@[simp] theorem setUart_adc (x : Uart) : (s.setUart x).adc = s.adc := rfl
@[simp] theorem setUart_din (x : Uart) : (s.setUart x).din = s.din := rfl
@[simp] theorem setUart_clock (x : Uart) : (s.setUart x).clock = s.clock := rfl
@[simp] theorem setUart_wdt (x : Uart) : (s.setUart x).wdt = s.wdt := rfl
@[simp] theorem setUart_fault (x : Uart) : (s.setUart x).fault = s.fault := rfl
@[simp] theorem setUart_fresh (x : Uart) : (s.setUart x).fresh = s.fresh := rfl
@[simp] theorem setUart_schedule (x : Uart) : (s.setUart x).schedule = s.schedule := rfl
@[simp] theorem setUart_ctxM (x : Uart) : (s.setUart x).port.ctxM = s.port.ctxM := rfl
@[simp] theorem setUart_ctxI (x : Uart) : (s.setUart x).port.ctxI = s.port.ctxI := rfl
@[simp] theorem setUart_stack (x : Uart) : (s.setUart x).stack = s.stack := rfl
@[simp] theorem setUart_ret (x : Uart) : (s.setUart x).ret = s.ret := rfl

/-! ### setTransport -/

@[simp] theorem setTransport_tx (x : Transport) : (s.setTransport x).port.tx = s.port.tx := rfl
@[simp] theorem setTransport_rx (x : Transport) : (s.setTransport x).port.rx = s.port.rx := rfl
@[simp] theorem setTransport_rxBusy (x : Transport) : (s.setTransport x).port.rxBusy = s.port.rxBusy := rfl
@[simp] theorem setTransport_stream (x : Transport) : (s.setTransport x).port.stream = s.port.stream := rfl
@[simp] theorem setTransport_uart (x : Transport) : (s.setTransport x).port.uart = s.port.uart := rfl
@[simp] theorem setTransport_transport (x : Transport) : (s.setTransport x).port.transport = x := rfl
@[simp] theorem setTransport_params (x : Transport) : (s.setTransport x).params = s.params := rfl
@[simp] theorem setTransport_others (x : Transport) : (s.setTransport x).others = s.others := rfl
@[simp] theorem setTransport_ctx (x : Transport) : (s.setTransport x).ctx = s.ctx := rfl
@[simp] theorem setTransport_blob (x : Transport) : (s.setTransport x).blob = s.blob := rfl
@[simp] theorem setTransport_flash (x : Transport) : (s.setTransport x).flash = s.flash := rfl
@[simp] theorem setTransport_driver (x : Transport) : (s.setTransport x).driver = s.driver := rfl
@[simp] theorem setTransport_channels (x : Transport) : (s.setTransport x).channels = s.channels := rfl
@[simp] theorem setTransport_execStore (x : Transport) : (s.setTransport x).execStore = s.execStore := rfl
@[simp] theorem setTransport_adc (x : Transport) : (s.setTransport x).adc = s.adc := rfl
@[simp] theorem setTransport_din (x : Transport) : (s.setTransport x).din = s.din := rfl
@[simp] theorem setTransport_clock (x : Transport) : (s.setTransport x).clock = s.clock := rfl
@[simp] theorem setTransport_wdt (x : Transport) : (s.setTransport x).wdt = s.wdt := rfl
@[simp] theorem setTransport_fault (x : Transport) : (s.setTransport x).fault = s.fault := rfl
@[simp] theorem setTransport_fresh (x : Transport) : (s.setTransport x).fresh = s.fresh := rfl
@[simp] theorem setTransport_schedule (x : Transport) : (s.setTransport x).schedule = s.schedule := rfl
@[simp] theorem setTransport_ctxM (x : Transport) : (s.setTransport x).port.ctxM = s.port.ctxM := rfl
@[simp] theorem setTransport_ctxI (x : Transport) : (s.setTransport x).port.ctxI = s.port.ctxI := rfl
@[simp] theorem setTransport_stack (x : Transport) : (s.setTransport x).stack = s.stack := rfl
@[simp] theorem setTransport_ret (x : Transport) : (s.setTransport x).ret = s.ret := rfl

/-! ### setStack -/

@[simp] theorem setStack_tx (x : List Activation) : (s.setStack x).port.tx = s.port.tx := rfl
@[simp] theorem setStack_rx (x : List Activation) : (s.setStack x).port.rx = s.port.rx := rfl
@[simp] theorem setStack_rxBusy (x : List Activation) : (s.setStack x).port.rxBusy = s.port.rxBusy := rfl
@[simp] theorem setStack_stream (x : List Activation) : (s.setStack x).port.stream = s.port.stream := rfl
@[simp] theorem setStack_uart (x : List Activation) : (s.setStack x).port.uart = s.port.uart := rfl
@[simp] theorem setStack_transport (x : List Activation) : (s.setStack x).port.transport = s.port.transport := rfl
@[simp] theorem setStack_params (x : List Activation) : (s.setStack x).params = s.params := rfl
@[simp] theorem setStack_others (x : List Activation) : (s.setStack x).others = s.others := rfl
@[simp] theorem setStack_ctx (x : List Activation) : (s.setStack x).ctx = s.ctx := rfl
@[simp] theorem setStack_blob (x : List Activation) : (s.setStack x).blob = s.blob := rfl
@[simp] theorem setStack_flash (x : List Activation) : (s.setStack x).flash = s.flash := rfl
@[simp] theorem setStack_driver (x : List Activation) : (s.setStack x).driver = s.driver := rfl
@[simp] theorem setStack_channels (x : List Activation) : (s.setStack x).channels = s.channels := rfl
@[simp] theorem setStack_execStore (x : List Activation) : (s.setStack x).execStore = s.execStore := rfl
@[simp] theorem setStack_adc (x : List Activation) : (s.setStack x).adc = s.adc := rfl
@[simp] theorem setStack_din (x : List Activation) : (s.setStack x).din = s.din := rfl
@[simp] theorem setStack_clock (x : List Activation) : (s.setStack x).clock = s.clock := rfl
@[simp] theorem setStack_wdt (x : List Activation) : (s.setStack x).wdt = s.wdt := rfl
@[simp] theorem setStack_fault (x : List Activation) : (s.setStack x).fault = s.fault := rfl
@[simp] theorem setStack_fresh (x : List Activation) : (s.setStack x).fresh = s.fresh := rfl
@[simp] theorem setStack_schedule (x : List Activation) : (s.setStack x).schedule = s.schedule := rfl

/-! ### setRet -/

@[simp] theorem setRet_tx (x : Returned) : (s.setRet x).port.tx = s.port.tx := rfl
@[simp] theorem setRet_rx (x : Returned) : (s.setRet x).port.rx = s.port.rx := rfl
@[simp] theorem setRet_rxBusy (x : Returned) : (s.setRet x).port.rxBusy = s.port.rxBusy := rfl
@[simp] theorem setRet_stream (x : Returned) : (s.setRet x).port.stream = s.port.stream := rfl
@[simp] theorem setRet_uart (x : Returned) : (s.setRet x).port.uart = s.port.uart := rfl
@[simp] theorem setRet_transport (x : Returned) : (s.setRet x).port.transport = s.port.transport := rfl
@[simp] theorem setRet_params (x : Returned) : (s.setRet x).params = s.params := rfl
@[simp] theorem setRet_others (x : Returned) : (s.setRet x).others = s.others := rfl
@[simp] theorem setRet_ctx (x : Returned) : (s.setRet x).ctx = s.ctx := rfl
@[simp] theorem setRet_blob (x : Returned) : (s.setRet x).blob = s.blob := rfl
@[simp] theorem setRet_flash (x : Returned) : (s.setRet x).flash = s.flash := rfl
@[simp] theorem setRet_driver (x : Returned) : (s.setRet x).driver = s.driver := rfl
@[simp] theorem setRet_channels (x : Returned) : (s.setRet x).channels = s.channels := rfl
@[simp] theorem setRet_execStore (x : Returned) : (s.setRet x).execStore = s.execStore := rfl
@[simp] theorem setRet_adc (x : Returned) : (s.setRet x).adc = s.adc := rfl
@[simp] theorem setRet_din (x : Returned) : (s.setRet x).din = s.din := rfl
@[simp] theorem setRet_clock (x : Returned) : (s.setRet x).clock = s.clock := rfl
@[simp] theorem setRet_wdt (x : Returned) : (s.setRet x).wdt = s.wdt := rfl
@[simp] theorem setRet_fault (x : Returned) : (s.setRet x).fault = s.fault := rfl
@[simp] theorem setRet_fresh (x : Returned) : (s.setRet x).fresh = s.fresh := rfl
@[simp] theorem setRet_schedule (x : Returned) : (s.setRet x).schedule = s.schedule := rfl

/-! ### setCtx -/

@[simp] theorem setCtx_tx (x : Ctx) : (s.setCtx x).port.tx = s.port.tx := rfl
@[simp] theorem setCtx_rx (x : Ctx) : (s.setCtx x).port.rx = s.port.rx := rfl
@[simp] theorem setCtx_rxBusy (x : Ctx) : (s.setCtx x).port.rxBusy = s.port.rxBusy := rfl
@[simp] theorem setCtx_stream (x : Ctx) : (s.setCtx x).port.stream = s.port.stream := rfl
@[simp] theorem setCtx_uart (x : Ctx) : (s.setCtx x).port.uart = s.port.uart := rfl
@[simp] theorem setCtx_transport (x : Ctx) : (s.setCtx x).port.transport = s.port.transport := rfl
@[simp] theorem setCtx_params (x : Ctx) : (s.setCtx x).params = s.params := rfl
@[simp] theorem setCtx_others (x : Ctx) : (s.setCtx x).others = s.others := rfl
@[simp] theorem setCtx_ctx (x : Ctx) : (s.setCtx x).ctx = x := rfl
@[simp] theorem setCtx_blob (x : Ctx) : (s.setCtx x).blob = s.blob := rfl
@[simp] theorem setCtx_flash (x : Ctx) : (s.setCtx x).flash = s.flash := rfl
@[simp] theorem setCtx_driver (x : Ctx) : (s.setCtx x).driver = s.driver := rfl
@[simp] theorem setCtx_channels (x : Ctx) : (s.setCtx x).channels = s.channels := rfl
@[simp] theorem setCtx_execStore (x : Ctx) : (s.setCtx x).execStore = s.execStore := rfl
@[simp] theorem setCtx_adc (x : Ctx) : (s.setCtx x).adc = s.adc := rfl
@[simp] theorem setCtx_din (x : Ctx) : (s.setCtx x).din = s.din := rfl
@[simp] theorem setCtx_clock (x : Ctx) : (s.setCtx x).clock = s.clock := rfl
@[simp] theorem setCtx_wdt (x : Ctx) : (s.setCtx x).wdt = s.wdt := rfl
@[simp] theorem setCtx_fault (x : Ctx) : (s.setCtx x).fault = s.fault := rfl
@[simp] theorem setCtx_fresh (x : Ctx) : (s.setCtx x).fresh = s.fresh := rfl
@[simp] theorem setCtx_schedule (x : Ctx) : (s.setCtx x).schedule = s.schedule := rfl
@[simp] theorem setCtx_port (x : Ctx) : (s.setCtx x).port = s.port := rfl
@[simp] theorem setCtx_ctxM (x : Ctx) : (s.setCtx x).port.ctxM = s.port.ctxM := rfl
@[simp] theorem setCtx_ctxI (x : Ctx) : (s.setCtx x).port.ctxI = s.port.ctxI := rfl

/-! ### setBlob -/

@[simp] theorem setBlob_tx (x : List Byte) : (s.setBlob x).port.tx = s.port.tx := rfl
@[simp] theorem setBlob_rx (x : List Byte) : (s.setBlob x).port.rx = s.port.rx := rfl
@[simp] theorem setBlob_rxBusy (x : List Byte) : (s.setBlob x).port.rxBusy = s.port.rxBusy := rfl
@[simp] theorem setBlob_stream (x : List Byte) : (s.setBlob x).port.stream = s.port.stream := rfl
@[simp] theorem setBlob_uart (x : List Byte) : (s.setBlob x).port.uart = s.port.uart := rfl
@[simp] theorem setBlob_transport (x : List Byte) : (s.setBlob x).port.transport = s.port.transport := rfl
@[simp] theorem setBlob_params (x : List Byte) : (s.setBlob x).params = s.params := rfl
@[simp] theorem setBlob_others (x : List Byte) : (s.setBlob x).others = s.others := rfl
@[simp] theorem setBlob_ctx (x : List Byte) : (s.setBlob x).ctx = s.ctx := rfl
@[simp] theorem setBlob_blob (x : List Byte) : (s.setBlob x).blob = x := rfl
@[simp] theorem setBlob_flash (x : List Byte) : (s.setBlob x).flash = s.flash := rfl
@[simp] theorem setBlob_driver (x : List Byte) : (s.setBlob x).driver = s.driver := rfl
@[simp] theorem setBlob_channels (x : List Byte) : (s.setBlob x).channels = s.channels := rfl
@[simp] theorem setBlob_execStore (x : List Byte) : (s.setBlob x).execStore = s.execStore := rfl
@[simp] theorem setBlob_adc (x : List Byte) : (s.setBlob x).adc = s.adc := rfl
@[simp] theorem setBlob_din (x : List Byte) : (s.setBlob x).din = s.din := rfl
@[simp] theorem setBlob_clock (x : List Byte) : (s.setBlob x).clock = s.clock := rfl
@[simp] theorem setBlob_wdt (x : List Byte) : (s.setBlob x).wdt = s.wdt := rfl
@[simp] theorem setBlob_fault (x : List Byte) : (s.setBlob x).fault = s.fault := rfl
@[simp] theorem setBlob_fresh (x : List Byte) : (s.setBlob x).fresh = s.fresh := rfl
@[simp] theorem setBlob_schedule (x : List Byte) : (s.setBlob x).schedule = s.schedule := rfl
@[simp] theorem setBlob_port (x : List Byte) : (s.setBlob x).port = s.port := rfl
@[simp] theorem setBlob_ctxM (x : List Byte) : (s.setBlob x).port.ctxM = s.port.ctxM := rfl
@[simp] theorem setBlob_ctxI (x : List Byte) : (s.setBlob x).port.ctxI = s.port.ctxI := rfl
@[simp] theorem setBlob_stack (x : List Byte) : (s.setBlob x).stack = s.stack := rfl
@[simp] theorem setBlob_ret (x : List Byte) : (s.setBlob x).ret = s.ret := rfl

/-! ### setExec -/

@[simp] theorem setExec_tx (x : Config.ExecState) : (s.setExec x).port.tx = s.port.tx := rfl
@[simp] theorem setExec_rx (x : Config.ExecState) : (s.setExec x).port.rx = s.port.rx := rfl
@[simp] theorem setExec_rxBusy (x : Config.ExecState) : (s.setExec x).port.rxBusy = s.port.rxBusy := rfl
@[simp] theorem setExec_stream (x : Config.ExecState) : (s.setExec x).port.stream = s.port.stream := rfl
@[simp] theorem setExec_uart (x : Config.ExecState) : (s.setExec x).port.uart = s.port.uart := rfl
@[simp] theorem setExec_transport (x : Config.ExecState) : (s.setExec x).port.transport = s.port.transport := rfl
@[simp] theorem setExec_params (x : Config.ExecState) : (s.setExec x).params = s.params := rfl
@[simp] theorem setExec_others (x : Config.ExecState) : (s.setExec x).others = s.others := rfl
@[simp] theorem setExec_ctx (x : Config.ExecState) : (s.setExec x).ctx = s.ctx := rfl
@[simp] theorem setExec_blob (x : Config.ExecState) : (s.setExec x).blob = x.blob := rfl
@[simp] theorem setExec_flash (x : Config.ExecState) : (s.setExec x).flash = s.flash := rfl
@[simp] theorem setExec_driver (x : Config.ExecState) : (s.setExec x).driver = s.driver := rfl
@[simp] theorem setExec_channels (x : Config.ExecState) : (s.setExec x).channels = x.channels := rfl
@[simp] theorem setExec_execStore (x : Config.ExecState) : (s.setExec x).execStore = x.store := rfl
@[simp] theorem setExec_adc (x : Config.ExecState) : (s.setExec x).adc = s.adc := rfl
@[simp] theorem setExec_din (x : Config.ExecState) : (s.setExec x).din = s.din := rfl
@[simp] theorem setExec_clock (x : Config.ExecState) : (s.setExec x).clock = s.clock := rfl
@[simp] theorem setExec_wdt (x : Config.ExecState) : (s.setExec x).wdt = s.wdt := rfl
@[simp] theorem setExec_fault (x : Config.ExecState) : (s.setExec x).fault = s.fault := rfl
@[simp] theorem setExec_fresh (x : Config.ExecState) : (s.setExec x).fresh = s.fresh := rfl
@[simp] theorem setExec_schedule (x : Config.ExecState) : (s.setExec x).schedule = s.schedule := rfl
@[simp] theorem setExec_port (x : Config.ExecState) : (s.setExec x).port = s.port := rfl
@[simp] theorem setExec_ctxM (x : Config.ExecState) : (s.setExec x).port.ctxM = s.port.ctxM := rfl
@[simp] theorem setExec_ctxI (x : Config.ExecState) : (s.setExec x).port.ctxI = s.port.ctxI := rfl
@[simp] theorem setExec_stack (x : Config.ExecState) : (s.setExec x).stack = s.stack := rfl
@[simp] theorem setExec_ret (x : Config.ExecState) : (s.setExec x).ret = s.ret := rfl

/-! ### setFlash -/

@[simp] theorem setFlash_tx (x : Flash) : (s.setFlash x).port.tx = s.port.tx := rfl
@[simp] theorem setFlash_rx (x : Flash) : (s.setFlash x).port.rx = s.port.rx := rfl
@[simp] theorem setFlash_rxBusy (x : Flash) : (s.setFlash x).port.rxBusy = s.port.rxBusy := rfl
@[simp] theorem setFlash_stream (x : Flash) : (s.setFlash x).port.stream = s.port.stream := rfl
@[simp] theorem setFlash_uart (x : Flash) : (s.setFlash x).port.uart = s.port.uart := rfl
@[simp] theorem setFlash_transport (x : Flash) : (s.setFlash x).port.transport = s.port.transport := rfl
@[simp] theorem setFlash_params (x : Flash) : (s.setFlash x).params = s.params := rfl
@[simp] theorem setFlash_others (x : Flash) : (s.setFlash x).others = s.others := rfl
@[simp] theorem setFlash_ctx (x : Flash) : (s.setFlash x).ctx = s.ctx := rfl
@[simp] theorem setFlash_blob (x : Flash) : (s.setFlash x).blob = s.blob := rfl
@[simp] theorem setFlash_flash (x : Flash) : (s.setFlash x).flash = x := rfl
@[simp] theorem setFlash_driver (x : Flash) : (s.setFlash x).driver = s.driver := rfl
@[simp] theorem setFlash_channels (x : Flash) : (s.setFlash x).channels = s.channels := rfl
@[simp] theorem setFlash_execStore (x : Flash) : (s.setFlash x).execStore = s.execStore := rfl
@[simp] theorem setFlash_adc (x : Flash) : (s.setFlash x).adc = s.adc := rfl
@[simp] theorem setFlash_din (x : Flash) : (s.setFlash x).din = s.din := rfl
@[simp] theorem setFlash_clock (x : Flash) : (s.setFlash x).clock = s.clock := rfl
@[simp] theorem setFlash_wdt (x : Flash) : (s.setFlash x).wdt = s.wdt := rfl
@[simp] theorem setFlash_fault (x : Flash) : (s.setFlash x).fault = s.fault := rfl
@[simp] theorem setFlash_fresh (x : Flash) : (s.setFlash x).fresh = s.fresh := rfl
@[simp] theorem setFlash_schedule (x : Flash) : (s.setFlash x).schedule = s.schedule := rfl
@[simp] theorem setFlash_port (x : Flash) : (s.setFlash x).port = s.port := rfl
@[simp] theorem setFlash_ctxM (x : Flash) : (s.setFlash x).port.ctxM = s.port.ctxM := rfl
@[simp] theorem setFlash_ctxI (x : Flash) : (s.setFlash x).port.ctxI = s.port.ctxI := rfl
@[simp] theorem setFlash_stack (x : Flash) : (s.setFlash x).stack = s.stack := rfl
@[simp] theorem setFlash_ret (x : Flash) : (s.setFlash x).ret = s.ret := rfl

/-! ### setDriver -/

@[simp] theorem setDriver_tx (x : Driver) : (s.setDriver x).port.tx = s.port.tx := rfl
@[simp] theorem setDriver_rx (x : Driver) : (s.setDriver x).port.rx = s.port.rx := rfl
@[simp] theorem setDriver_rxBusy (x : Driver) : (s.setDriver x).port.rxBusy = s.port.rxBusy := rfl
@[simp] theorem setDriver_stream (x : Driver) : (s.setDriver x).port.stream = s.port.stream := rfl
@[simp] theorem setDriver_uart (x : Driver) : (s.setDriver x).port.uart = s.port.uart := rfl
@[simp] theorem setDriver_transport (x : Driver) : (s.setDriver x).port.transport = s.port.transport := rfl
@[simp] theorem setDriver_params (x : Driver) : (s.setDriver x).params = s.params := rfl
@[simp] theorem setDriver_others (x : Driver) : (s.setDriver x).others = s.others := rfl
@[simp] theorem setDriver_ctx (x : Driver) : (s.setDriver x).ctx = s.ctx := rfl
@[simp] theorem setDriver_blob (x : Driver) : (s.setDriver x).blob = s.blob := rfl
@[simp] theorem setDriver_flash (x : Driver) : (s.setDriver x).flash = s.flash := rfl
@[simp] theorem setDriver_driver (x : Driver) : (s.setDriver x).driver = x := rfl
@[simp] theorem setDriver_channels (x : Driver) : (s.setDriver x).channels = s.channels := rfl
@[simp] theorem setDriver_execStore (x : Driver) : (s.setDriver x).execStore = s.execStore := rfl
@[simp] theorem setDriver_adc (x : Driver) : (s.setDriver x).adc = s.adc := rfl
@[simp] theorem setDriver_din (x : Driver) : (s.setDriver x).din = s.din := rfl
@[simp] theorem setDriver_clock (x : Driver) : (s.setDriver x).clock = s.clock := rfl
@[simp] theorem setDriver_wdt (x : Driver) : (s.setDriver x).wdt = s.wdt := rfl
@[simp] theorem setDriver_fault (x : Driver) : (s.setDriver x).fault = s.fault := rfl
@[simp] theorem setDriver_fresh (x : Driver) : (s.setDriver x).fresh = s.fresh := rfl
@[simp] theorem setDriver_schedule (x : Driver) : (s.setDriver x).schedule = s.schedule := rfl
@[simp] theorem setDriver_port (x : Driver) : (s.setDriver x).port = s.port := rfl
@[simp] theorem setDriver_ctxM (x : Driver) : (s.setDriver x).port.ctxM = s.port.ctxM := rfl
@[simp] theorem setDriver_ctxI (x : Driver) : (s.setDriver x).port.ctxI = s.port.ctxI := rfl
@[simp] theorem setDriver_stack (x : Driver) : (s.setDriver x).stack = s.stack := rfl
@[simp] theorem setDriver_ret (x : Driver) : (s.setDriver x).ret = s.ret := rfl

/-! ### setWdt -/

@[simp] theorem setWdt_tx (x : Nat) : (s.setWdt x).port.tx = s.port.tx := rfl
@[simp] theorem setWdt_rx (x : Nat) : (s.setWdt x).port.rx = s.port.rx := rfl
@[simp] theorem setWdt_rxBusy (x : Nat) : (s.setWdt x).port.rxBusy = s.port.rxBusy := rfl
@[simp] theorem setWdt_stream (x : Nat) : (s.setWdt x).port.stream = s.port.stream := rfl
@[simp] theorem setWdt_uart (x : Nat) : (s.setWdt x).port.uart = s.port.uart := rfl
@[simp] theorem setWdt_transport (x : Nat) : (s.setWdt x).port.transport = s.port.transport := rfl
@[simp] theorem setWdt_params (x : Nat) : (s.setWdt x).params = s.params := rfl
@[simp] theorem setWdt_others (x : Nat) : (s.setWdt x).others = s.others := rfl
@[simp] theorem setWdt_ctx (x : Nat) : (s.setWdt x).ctx = s.ctx := rfl
@[simp] theorem setWdt_blob (x : Nat) : (s.setWdt x).blob = s.blob := rfl
@[simp] theorem setWdt_flash (x : Nat) : (s.setWdt x).flash = s.flash := rfl
@[simp] theorem setWdt_driver (x : Nat) : (s.setWdt x).driver = s.driver := rfl
@[simp] theorem setWdt_channels (x : Nat) : (s.setWdt x).channels = s.channels := rfl
@[simp] theorem setWdt_execStore (x : Nat) : (s.setWdt x).execStore = s.execStore := rfl
@[simp] theorem setWdt_adc (x : Nat) : (s.setWdt x).adc = s.adc := rfl
@[simp] theorem setWdt_din (x : Nat) : (s.setWdt x).din = s.din := rfl
@[simp] theorem setWdt_clock (x : Nat) : (s.setWdt x).clock = s.clock := rfl
@[simp] theorem setWdt_wdt (x : Nat) : (s.setWdt x).wdt = x := rfl
@[simp] theorem setWdt_fault (x : Nat) : (s.setWdt x).fault = s.fault := rfl
@[simp] theorem setWdt_fresh (x : Nat) : (s.setWdt x).fresh = s.fresh := rfl
@[simp] theorem setWdt_schedule (x : Nat) : (s.setWdt x).schedule = s.schedule := rfl
@[simp] theorem setWdt_port (x : Nat) : (s.setWdt x).port = s.port := rfl
@[simp] theorem setWdt_ctxM (x : Nat) : (s.setWdt x).port.ctxM = s.port.ctxM := rfl
@[simp] theorem setWdt_ctxI (x : Nat) : (s.setWdt x).port.ctxI = s.port.ctxI := rfl
@[simp] theorem setWdt_stack (x : Nat) : (s.setWdt x).stack = s.stack := rfl
@[simp] theorem setWdt_ret (x : Nat) : (s.setWdt x).ret = s.ret := rfl

/-! ### setFault -/

@[simp] theorem setFault_tx (x : Fault) : (s.setFault x).port.tx = s.port.tx := rfl
@[simp] theorem setFault_rx (x : Fault) : (s.setFault x).port.rx = s.port.rx := rfl
@[simp] theorem setFault_rxBusy (x : Fault) : (s.setFault x).port.rxBusy = s.port.rxBusy := rfl
@[simp] theorem setFault_stream (x : Fault) : (s.setFault x).port.stream = s.port.stream := rfl
@[simp] theorem setFault_uart (x : Fault) : (s.setFault x).port.uart = s.port.uart := rfl
@[simp] theorem setFault_transport (x : Fault) : (s.setFault x).port.transport = s.port.transport := rfl
@[simp] theorem setFault_params (x : Fault) : (s.setFault x).params = s.params := rfl
@[simp] theorem setFault_others (x : Fault) : (s.setFault x).others = s.others := rfl
@[simp] theorem setFault_ctx (x : Fault) : (s.setFault x).ctx = s.ctx := rfl
@[simp] theorem setFault_blob (x : Fault) : (s.setFault x).blob = s.blob := rfl
@[simp] theorem setFault_flash (x : Fault) : (s.setFault x).flash = s.flash := rfl
@[simp] theorem setFault_driver (x : Fault) : (s.setFault x).driver = s.driver := rfl
@[simp] theorem setFault_channels (x : Fault) : (s.setFault x).channels = s.channels := rfl
@[simp] theorem setFault_execStore (x : Fault) : (s.setFault x).execStore = s.execStore := rfl
@[simp] theorem setFault_adc (x : Fault) : (s.setFault x).adc = s.adc := rfl
@[simp] theorem setFault_din (x : Fault) : (s.setFault x).din = s.din := rfl
@[simp] theorem setFault_clock (x : Fault) : (s.setFault x).clock = s.clock := rfl
@[simp] theorem setFault_wdt (x : Fault) : (s.setFault x).wdt = s.wdt := rfl
@[simp] theorem setFault_fault (x : Fault) : (s.setFault x).fault = some x := rfl
@[simp] theorem setFault_fresh (x : Fault) : (s.setFault x).fresh = s.fresh := rfl
@[simp] theorem setFault_schedule (x : Fault) : (s.setFault x).schedule = s.schedule := rfl
@[simp] theorem setFault_port (x : Fault) : (s.setFault x).port = s.port := rfl
@[simp] theorem setFault_ctxM (x : Fault) : (s.setFault x).port.ctxM = s.port.ctxM := rfl
@[simp] theorem setFault_ctxI (x : Fault) : (s.setFault x).port.ctxI = s.port.ctxI := rfl
@[simp] theorem setFault_stack (x : Fault) : (s.setFault x).stack = s.stack := rfl
@[simp] theorem setFault_ret (x : Fault) : (s.setFault x).ret = s.ret := rfl

/-! ### setFresh -/

@[simp] theorem setFresh_tx (x : Nat) : (s.setFresh x).port.tx = s.port.tx := rfl
@[simp] theorem setFresh_rx (x : Nat) : (s.setFresh x).port.rx = s.port.rx := rfl
@[simp] theorem setFresh_rxBusy (x : Nat) : (s.setFresh x).port.rxBusy = s.port.rxBusy := rfl
@[simp] theorem setFresh_stream (x : Nat) : (s.setFresh x).port.stream = s.port.stream := rfl
@[simp] theorem setFresh_uart (x : Nat) : (s.setFresh x).port.uart = s.port.uart := rfl
@[simp] theorem setFresh_transport (x : Nat) : (s.setFresh x).port.transport = s.port.transport := rfl
@[simp] theorem setFresh_params (x : Nat) : (s.setFresh x).params = s.params := rfl
@[simp] theorem setFresh_others (x : Nat) : (s.setFresh x).others = s.others := rfl
@[simp] theorem setFresh_ctx (x : Nat) : (s.setFresh x).ctx = s.ctx := rfl
@[simp] theorem setFresh_blob (x : Nat) : (s.setFresh x).blob = s.blob := rfl
@[simp] theorem setFresh_flash (x : Nat) : (s.setFresh x).flash = s.flash := rfl
@[simp] theorem setFresh_driver (x : Nat) : (s.setFresh x).driver = s.driver := rfl
@[simp] theorem setFresh_channels (x : Nat) : (s.setFresh x).channels = s.channels := rfl
@[simp] theorem setFresh_execStore (x : Nat) : (s.setFresh x).execStore = s.execStore := rfl
@[simp] theorem setFresh_adc (x : Nat) : (s.setFresh x).adc = s.adc := rfl
@[simp] theorem setFresh_din (x : Nat) : (s.setFresh x).din = s.din := rfl
@[simp] theorem setFresh_clock (x : Nat) : (s.setFresh x).clock = s.clock := rfl
@[simp] theorem setFresh_wdt (x : Nat) : (s.setFresh x).wdt = s.wdt := rfl
@[simp] theorem setFresh_fault (x : Nat) : (s.setFresh x).fault = s.fault := rfl
@[simp] theorem setFresh_fresh (x : Nat) : (s.setFresh x).fresh = x := rfl
@[simp] theorem setFresh_schedule (x : Nat) : (s.setFresh x).schedule = s.schedule := rfl
@[simp] theorem setFresh_port (x : Nat) : (s.setFresh x).port = s.port := rfl
@[simp] theorem setFresh_ctxM (x : Nat) : (s.setFresh x).port.ctxM = s.port.ctxM := rfl
@[simp] theorem setFresh_ctxI (x : Nat) : (s.setFresh x).port.ctxI = s.port.ctxI := rfl
@[simp] theorem setFresh_stack (x : Nat) : (s.setFresh x).stack = s.stack := rfl
@[simp] theorem setFresh_ret (x : Nat) : (s.setFresh x).ret = s.ret := rfl

/-! ### setSchedule -/

@[simp] theorem setSchedule_tx (x : List Event) : (s.setSchedule x).port.tx = s.port.tx := rfl
@[simp] theorem setSchedule_rx (x : List Event) : (s.setSchedule x).port.rx = s.port.rx := rfl
@[simp] theorem setSchedule_rxBusy (x : List Event) : (s.setSchedule x).port.rxBusy = s.port.rxBusy := rfl
@[simp] theorem setSchedule_stream (x : List Event) : (s.setSchedule x).port.stream = s.port.stream := rfl
@[simp] theorem setSchedule_uart (x : List Event) : (s.setSchedule x).port.uart = s.port.uart := rfl
@[simp] theorem setSchedule_transport (x : List Event) : (s.setSchedule x).port.transport = s.port.transport := rfl
@[simp] theorem setSchedule_params (x : List Event) : (s.setSchedule x).params = s.params := rfl
@[simp] theorem setSchedule_others (x : List Event) : (s.setSchedule x).others = s.others := rfl
@[simp] theorem setSchedule_ctx (x : List Event) : (s.setSchedule x).ctx = s.ctx := rfl
@[simp] theorem setSchedule_blob (x : List Event) : (s.setSchedule x).blob = s.blob := rfl
@[simp] theorem setSchedule_flash (x : List Event) : (s.setSchedule x).flash = s.flash := rfl
@[simp] theorem setSchedule_driver (x : List Event) : (s.setSchedule x).driver = s.driver := rfl
@[simp] theorem setSchedule_channels (x : List Event) : (s.setSchedule x).channels = s.channels := rfl
@[simp] theorem setSchedule_execStore (x : List Event) : (s.setSchedule x).execStore = s.execStore := rfl
@[simp] theorem setSchedule_adc (x : List Event) : (s.setSchedule x).adc = s.adc := rfl
@[simp] theorem setSchedule_din (x : List Event) : (s.setSchedule x).din = s.din := rfl
@[simp] theorem setSchedule_clock (x : List Event) : (s.setSchedule x).clock = s.clock := rfl
@[simp] theorem setSchedule_wdt (x : List Event) : (s.setSchedule x).wdt = s.wdt := rfl
@[simp] theorem setSchedule_fault (x : List Event) : (s.setSchedule x).fault = s.fault := rfl
@[simp] theorem setSchedule_fresh (x : List Event) : (s.setSchedule x).fresh = s.fresh := rfl
@[simp] theorem setSchedule_schedule (x : List Event) : (s.setSchedule x).schedule = x := rfl
@[simp] theorem setSchedule_port (x : List Event) : (s.setSchedule x).port = s.port := rfl
@[simp] theorem setSchedule_ctxM (x : List Event) : (s.setSchedule x).port.ctxM = s.port.ctxM := rfl
@[simp] theorem setSchedule_ctxI (x : List Event) : (s.setSchedule x).port.ctxI = s.port.ctxI := rfl
@[simp] theorem setSchedule_stack (x : List Event) : (s.setSchedule x).stack = s.stack := rfl
@[simp] theorem setSchedule_ret (x : List Event) : (s.setSchedule x).ret = s.ret := rfl

/-! ### The executing context's record -/

@[simp] theorem setStack_stack (l : List Activation) : (s.setStack l).stack = l := by
  unfold stack setStack Port.setContext Port.context; cases s.ctx <;> rfl
@[simp] theorem setStack_ret (l : List Activation) : (s.setStack l).ret = s.ret := by
  unfold ret setStack Port.setContext Port.context; cases s.ctx <;> rfl
@[simp] theorem setRet_ret (r : Returned) : (s.setRet r).ret = r := by
  unfold ret setRet Port.setContext Port.context; cases s.ctx <;> rfl
@[simp] theorem setRet_stack (r : Returned) : (s.setRet r).stack = s.stack := by
  unfold stack setRet Port.setContext Port.context; cases s.ctx <;> rfl

/-- The other context's record is left alone. -/
@[simp] theorem setStack_other (l : List Activation) :
    (s.setStack l).port.context s.ctx.other = s.port.context s.ctx.other := by
  unfold setStack Port.setContext Port.context Ctx.other; cases s.ctx <;> rfl
@[simp] theorem setRet_other (r : Returned) :
    (s.setRet r).port.context s.ctx.other = s.port.context s.ctx.other := by
  unfold setRet Port.setContext Port.context Ctx.other; cases s.ctx <;> rfl

@[simp] theorem setStack_setStack (l l' : List Activation) : (s.setStack l).setStack l' = s.setStack l' := by
  unfold setStack Port.setContext Port.context; cases s.ctx <;> rfl

@[simp] theorem setStack_self : s.setStack s.stack = s := by
  rcases s with ⟨_, _, _, c, _⟩
  cases c <;> rfl

/-- Stack updates commute with updates of other port fields. -/
theorem setStack_setTransport (l : List Activation) (t : Transport) :
    (s.setStack l).setTransport t = (s.setTransport t).setStack l := by
  unfold setStack setTransport Port.setContext Port.context; cases s.ctx <;> rfl

end Sys2Proof.Machine.State
end

