-- ==== Sys2Proof/Laws/Ops.lean ====
section
/-! SUPPORT. One lemma per shared operation that says what it can do; proofs cite these instead of unfolding. -/

namespace Sys2Proof.Machine

namespace State

variable {s t : State}

/-! ### Stacks -/

theorem push_eq (a : Activation) : s.push a = s.setStack (a :: s.stack) := rfl
theorem replaceTop_eq (a : Activation) : s.replaceTop a = s.setStack (a :: s.stack.tail) := rfl
theorem popTop_eq : s.popTop = s.setStack s.stack.tail := rfl
theorem unwind_eq : s.unwind = s.setStack (s.stack.dropWhile Activation.isAwaiting) := rfl
theorem leave_eq : s.leave = s.setStack (s.stack.tail.dropWhile Activation.isAwaiting) := rfl
theorem enter_eq (c : Ctx) : s.enter c = s.setCtx c := rfl

/-! ### Faults -/

/-- A step with no recorded fault goes on, from the very state; one with a fault stops with it. -/
theorem settle_eq_next_iff : s.settle = .next t ↔ s.fault = none ∧ t = s := by
  unfold settle
  split <;> rename_i h <;> simp [h, eq_comm]

theorem settle_eq_fault_iff {k : Fault} : s.settle = .fault k ↔ s.fault = some k := by
  unfold settle
  split <;> rename_i h <;> simp [h]

theorem settle_of_none (h : s.fault = none) : s.settle = .next s := settle_eq_next_iff.2 ⟨h, rfl⟩

/-- The first fault is recorded and stays. -/
theorem raise_fault (k : Fault) : (s.raise k).fault = some (s.fault.getD k) := by
  unfold raise
  split <;> rename_i h <;> simp [h]

/-! ### The ring -/

/-- A full ring drops the byte; else it is stored at `head`, which moves on. -/
theorem ring_put_cases (cap : Nat) (b : Byte) (r : Ring) :
    ((r.head + 1) % cap = r.tail ∧ r.put cap b = (r, false)) ∨
    ((r.head + 1) % cap ≠ r.tail ∧
      r.put cap b = ({ r with buf := r.buf.set r.head b, head := (r.head + 1) % cap }, true)) := by
  unfold Ring.put Ring.isFull
  by_cases h : (r.head + 1) % cap = r.tail <;> simp [h]

/-- `ring_put` keeps the array's length and the indices in range. -/
theorem ring_put_ok {cap : Nat} (b : Byte) {r : Ring} (h : r.ok cap) : (r.put cap b).1.ok cap := by
  rcases ring_put_cases cap b r with ⟨_, e⟩ | ⟨_, e⟩ <;> rw [e]
  · exact h
  · exact ⟨by simpa using h.1, Nat.mod_lt _ (by have := h.2.1; omega), h.2.2⟩

/-- `ring_get` keeps the array's length and the indices in range. -/
theorem ring_get_ok {cap : Nat} {r : Ring} (h : r.ok cap) : (r.get cap).2.ok cap :=
  ⟨h.1, h.2.1, Nat.mod_lt _ (by have := h.2.1; omega)⟩

theorem ringPut_eq (b : Byte) : s.ringPut b = s.setRx (s.port.rx.put s.params.rxCap b).1 := rfl

/-- A wait iteration's receive poll: nothing without RXNE; with it RDR is captured and RXNE cleared. -/
theorem rxCapture_cases :
    (s.port.uart.rxne = false ∧ s.rxCapture = s) ∨
    (s.port.uart.rxne = true ∧
      s.rxCapture = (s.setRx (s.port.rx.put s.params.rxCap s.port.uart.rdr).1).setUart { s.port.uart with rxne := false }) := by
  unfold rxCapture
  by_cases h : s.port.uart.rxne = true
  · right; simp [h, ringPut_eq]
  · left; simp_all

/-! ### The batch -/

/-- `begin_send`: BUSY marks the caller as rejected and changes nothing else; OK starts an empty batch the caller owns. -/
theorem beginBatch_cases :
    (s.port.tx.inProgress = true ∧ (s.beginBatch).2 = false ∧
      ∃ m i, (s.beginBatch).1 = s.setTx { s.port.tx with rejectedM := m, rejectedI := i } ∧
        (m = if s.ctx = .m then true else s.port.tx.rejectedM) ∧
        (i = if s.ctx = .i then true else s.port.tx.rejectedI)) ∨
    (s.port.tx.inProgress = false ∧
      s.beginBatch = (s.setTx { s.port.tx with buf := [], inProgress := true, owner := some s.ctx }, true)) := by
  unfold beginBatch
  by_cases h : s.port.tx.inProgress = true
  · left
    simp only [h, if_true]
    exact ⟨trivial, trivial, _, _, rfl, by cases s.ctx <;> rfl, by cases s.ctx <;> rfl⟩
  · right; simp_all

/-- `append_byte`: ignored, faulted, dropped or stored. -/
theorem appendToBatch_cases (b : Byte) :
    (s.port.tx.inProgress = false ∧ s.appendToBatch b = s) ∨
    (s.port.tx.inProgress = true ∧ s.port.tx.foreign s.ctx = true ∧ s.appendToBatch b = s.raise .txForeignBatch) ∨
    (s.port.tx.inProgress = true ∧ s.port.tx.foreign s.ctx = false ∧ s.port.tx.len = s.params.txCap ∧
      s.appendToBatch b = s) ∨
    (s.port.tx.inProgress = true ∧ s.port.tx.foreign s.ctx = false ∧ s.port.tx.len ≠ s.params.txCap ∧
      s.appendToBatch b = s.setTx { s.port.tx with buf := s.port.tx.buf ++ [b] }) := by
  unfold appendToBatch
  by_cases h1 : s.port.tx.inProgress = true <;> by_cases h2 : s.port.tx.foreign s.ctx = true <;>
    by_cases h3 : s.port.tx.len = s.params.txCap <;> simp_all

/-- The end of the transmit phase: the batch is over; the guard is taken exactly when it was free. -/
theorem finishBatch_eq :
    s.finishBatch =
      (let u := s.setTx { s.port.tx with inProgress := false, owner := none, rejectedM := false, rejectedI := false }
       if s.port.rxBusy then u else u.setRxBusy true, !s.port.rxBusy) := by
  unfold finishBatch
  by_cases h : s.port.rxBusy = true <;> simp [h]

/-- A context that owns the batch and was not refused is not foreign. -/
theorem foreign_eq_false_iff (x : TxBatch) (c : Ctx) :
    x.foreign c = false ↔ x.owner = some c ∧ x.rejected c = false := by
  unfold TxBatch.foreign
  cases h : x.rejected c <;> simp

/-- The drain loop's step: release and return on an empty ring, else one byte goes into a poll. -/
theorem stepDrain_cases :
    (s.port.rx.head = s.port.rx.tail ∧ s.stepDrain = (s.setRxBusy false).leave) ∨
    (s.port.rx.head ≠ s.port.rx.tail ∧
      s.stepDrain = (s.setRx (s.port.rx.get s.params.rxCap).2).push (.poll (s.port.rx.get s.params.rxCap).1)) := by
  unfold stepDrain Ring.isEmpty
  by_cases h : s.port.rx.head = s.port.rx.tail <;> simp [h]

/-! ### Sending -/

/-- `Transport.send` of a frame that goes out at once: UNREL, or REL under `REL_ONCE`. -/
theorem transportSend_once (id : FrameId) (p : List Byte) (mode : SendMode)
    (h : mode = .unrel ∨ s.params.reliability = .relOnce) :
    s.transportSend id p mode = s.push (.transmit (.spaceTest ⟨id, none, p⟩)) := by
  unfold transportSend
  split <;> simp_all

/-- `Transport.send` of a REL frame under the OPEN relation: the frame is queued. -/
theorem transportSend_open (id : FrameId) (p : List Byte) (h : s.params.reliability = .openRel) :
    s.transportSend id p .rel =
      (s.setTransport { s.port.transport with relQueue := s.port.transport.relQueue ++ [⟨id, p⟩] }).push .relSent := by
  unfold transportSend
  split <;> simp_all

/-- `reply` of a frame that goes out at once. -/
theorem sendReply_once (id : FrameId) (p : List Byte) (mode : SendMode)
    (h : mode = .unrel ∨ s.params.reliability = .relOnce) :
    s.sendReply id p mode =
      s.setStack (.transmit (.spaceTest ⟨id, none, p⟩) :: .awaiting .reply :: s.stack) := by
  unfold sendReply
  rw [transportSend_once id p mode (by simpa [push_eq] using h)]
  simp [push_eq]

/-- A reply changes the executing context's stack and, under the OPEN relation, the queue: nothing else. -/
theorem sendReply_frame (id : FrameId) (p : List Byte) (mode : SendMode) :
    ∃ l q, s.sendReply id p mode = (s.setTransport { s.port.transport with relQueue := q }).setStack l ∧
      l.drop 2 = s.stack := by
  unfold sendReply transportSend
  split
  · refine ⟨.relSent :: .awaiting .reply :: s.stack, s.port.transport.relQueue ++ [⟨id, p⟩], ?_, rfl⟩
    simp [push_eq, setStack_setTransport]
  · refine ⟨.transmit (.spaceTest ⟨id, none, p⟩) :: .awaiting .reply :: s.stack,
      s.port.transport.relQueue, ?_, rfl⟩
    simp only [push_eq, setStack_stack, setStack_setStack]
    rfl

/-! ### The flash and the reset -/

/-- An erase draws one free value, drops one scripted outcome, and changes the cells: nothing else. -/
theorem eraseSector_frame :
    ∃ cells, (s.eraseSector).1 =
      (s.setFlash { s.flash with cells := cells, eraseScript := s.flash.eraseScript.tail }).setFresh (s.fresh + 1) ∧
      (s.eraseSector).2 = s.nextErase :=
  ⟨_, rfl, rfl⟩

/-- A program call draws one free value, drops one scripted outcome, and changes the cells: nothing else. -/
theorem programWord_frame (a : Nat) (w : List Byte) :
    ∃ cells, (s.programWord a w).1 =
      (s.setFlash { s.flash with cells := cells, programScript := s.flash.programScript.tail }).setFresh (s.fresh + 1) ∧
      (s.programWord a w).2 = s.nextProgram :=
  ⟨_, rfl, rfl⟩

/-- `Store.load` writes the blob: nothing else. -/
theorem storeLoad_eq : s.storeLoad = (s.setBlob (s.storedBlob.getD []), s.storedBlob.isSome) := by
  unfold storeLoad
  split <;> rename_i h <;> simp [h]

/-- The record a trusted load gives is not empty and fits the buffer. -/
theorem storedBlob_length {l : List Byte} (h : s.storedBlob = some l) : 0 < l.length ∧ l.length ≤ Config.blobCap := by
  unfold storedBlob at h
  simp only at h
  split at h
  · cases h
  · split at h
    · cases h
      simp only [flashBytes, Memory.length_readBytes] at *
      omega
    · cases h

/-- A guarded erase: done or failed, with the watchdog restarted on both sides; or the watchdog expired inside it and the
system has reset. -/
theorem guardedErase_cases :
    (∃ ok, s.guardedErase = ((s.wdtRefresh.eraseSector).1.wdtRefresh, some ok) ∧
      s.nextErase = (if ok then .done else .failed)) ∨
    (s.nextErase = .expired ∧ s.guardedErase = (systemReset (s.wdtRefresh.eraseSector).1, none)) := by
  have h : s.wdtRefresh.eraseSector = ((s.wdtRefresh.eraseSector).1, s.nextErase) := rfl
  unfold guardedErase
  rw [h]
  cases s.nextErase
  · exact .inl ⟨true, rfl, rfl⟩
  · exact .inl ⟨false, rfl, rfl⟩
  · exact .inr ⟨rfl, rfl⟩

/-- The default LoadBinary writes the blob and may draw one free value: nothing else. -/
theorem loadDefault_frame (c : Chunk) :
    ∃ n, (s.loadDefault c).1 = (s.setBlob (loadChunk s.fresh c s.blob)).setFresh n ∧ (n = s.fresh ∨ n = s.fresh + 1) := by
  refine ⟨_, rfl, ?_⟩
  split <;> simp

/-- Another instance keeps the blob within its buffer (R340 (b)). -/
theorem length_loadOther (n : Nat) (p : List Byte) (e : Config.ExecState) (h : e.blob.length ≤ Config.blobCap) :
    (loadOther n p e).blob.length ≤ Config.blobCap := by
  unfold loadOther
  simp only
  split
  · exact List.length_take_le _ _
  · exact h

/-- Applying a payload to another instance twice leaves what applying it once leaves (R340 (c)). -/
theorem loadOther_loadOther (n : Nat) (p : List Byte) (e : Config.ExecState) :
    loadOther n p (loadOther n p e) = loadOther n p e := by
  by_cases h : loadOther n p e = e
  · rw [h, h]
  · unfold loadOther at h ⊢
    simp only at h ⊢
    split at h
    · rename_i hh
      simp only [hh, if_true]
    · exact absurd rfl h

/-- Every instance of LoadBinary writes the blob and the executor's own state and may draw one free value: nothing
else. -/
theorem execLoad_frame (p : List Byte) (c : Chunk) :
    ∃ e n, (s.execLoad p c).1 = (s.setExec e).setFresh n ∧ (n = s.fresh ∨ n = s.fresh + 1) := by
  unfold execLoad
  split
  · obtain ⟨n, h, hn⟩ := loadDefault_frame (s := s) c
    exact ⟨⟨loadChunk s.fresh c s.blob, s.execStore, s.channels⟩, n, h, hn⟩
  · exact ⟨_, s.fresh, rfl, .inl rfl⟩

/-- Accepting a delivery changes the sequence number the layer expects and draws free values: nothing else. -/
theorem acceptDelivery_frame (d : Delivery) :
    ∃ q n, (s.acceptDelivery d).1 = (s.setTransport { s.port.transport with relRxSeq := q }).setFresh n := by
  unfold acceptDelivery
  split
  · exact ⟨s.port.transport.relRxSeq, s.fresh, rfl⟩
  · split
    · exact ⟨s.port.transport.relRxSeq, s.fresh, rfl⟩
    · split
      · exact ⟨_, _, rfl⟩
      · exact ⟨s.port.transport.relRxSeq, _, rfl⟩

/-- A reset keeps the number of ports. -/
theorem length_resetAll (p : Config.Params) (n : Nat) (l : List Port) :
    ∀ k, (Port.resetAll p n k l).length = l.length := by
  induction l with
  | nil => exact fun _ => rfl
  | cons q l ih => exact fun k => congrArg (· + 1) (ih (k + 1))

/-- Every port a reset leaves is at its reset values. -/
theorem mem_resetAll {p : Config.Params} {n : Nat} {l : List Port} {q : Port} :
    ∀ {k}, q ∈ Port.resetAll p n k l → ∃ k' sent, q = Port.reset p n k' sent := by
  induction l with
  | nil => exact fun h => nomatch h
  | cons q' l ih =>
    intro k h
    rcases List.mem_cons.1 h with rfl | h
    · exact ⟨_, _, rfl⟩
    · exact ih h

/-- A system reset: the ports at their reset values, the loaded blob, the watchdog restarted, one free draw. -/
theorem systemReset_eq :
    systemReset s = ((s.resetPorts.setWdt 0).setBlob ((s.resetPorts.setWdt 0).storedBlob.getD [])) := by
  unfold systemReset
  rw [storeLoad_eq]

end State

/-- The record: 8 header bytes, the data, and the padding that completes the last word (R331). -/
theorem length_recordBytes (pad : Byte) (l : List Byte) :
    (recordBytes pad l).length = 8 + 4 * ((l.length + 3) / 4) := by
  simp only [recordBytes, recordHeader, u32le, u16le, padCount, List.length_append, List.length_cons, List.length_nil,
    List.length_replicate]
  omega

/-- Boot of a machine with an erased flash finds no record (R334, R443), whatever `FLASH_ERASED` is: so the empty blob of
`State.initial` is what boot leaves. -/
theorem systemReset_initial (s : State) (h : s.flash.cells = []) : (systemReset s).blob = [] := by
  have hr : (s.resetPorts.setWdt 0).storedBlob = none := by
    have e : ∀ b : Byte, rd32le (List.replicate 8 b) 0 ≠ recordMagic := by decide
    have hb : (s.resetPorts.setWdt 0).flashBytes (s.resetPorts.setWdt 0).params.recordAddr 8 =
        List.replicate 8 s.params.flashErased := by
      simp [State.flashBytes, Memory.readBytes, State.resetPorts, h, Memory.read, State.setWdt, List.map_const']
    unfold State.storedBlob
    simp only [hb]
    rw [if_pos (.inl (e _))]
  rw [State.systemReset_eq, hr]
  rfl

end Sys2Proof.Machine
end

