-- ==== Sys2Proof/Laws/PerInstr.lean ====
section
/-! SUPPORT. Statements made per instruction. `FrameEncoding`: the payload of a well-formed frame instruction fits the
frame's length byte (R100, R110), so that encoding drops nothing. -/

namespace Sys2Proof.Laws

/-- The payload an encoding of `i` carries has at most 255 bytes. -/
def FrameEncoding.Statement (i : Instr) : Prop :=
  ∀ r f, i.wf r = true → i.frame? r = some f → f.2.length ≤ Config.maxPayload

namespace FrameEncoding

theorem ping (p : List Byte) : Statement (.ping p) := fun _ _ hw hf => by cases hf; exact of_decide_eq_true hw
theorem reset (p : List Byte) : Statement (.reset p) := fun _ _ hw hf => by cases hf; exact of_decide_eq_true hw
theorem getConfig (p : List Byte) : Statement (.getConfig p) := fun _ _ hw hf => by cases hf; exact of_decide_eq_true hw
theorem saveConfig (p : List Byte) : Statement (.saveConfig p) := fun _ _ hw hf => by cases hf; exact of_decide_eq_true hw
theorem clearConfig (p : List Byte) : Statement (.clearConfig p) := fun _ _ hw hf => by cases hf; exact of_decide_eq_true hw
theorem loadBinary (p : List Byte) : Statement (.loadBinary p) := fun _ _ hw hf => by cases hf; exact of_decide_eq_true hw
theorem startStream (p : List Byte) : Statement (.startStream p) := fun _ _ hw hf => by cases hf; exact of_decide_eq_true hw
theorem stopStream (p : List Byte) : Statement (.stopStream p) := fun _ _ hw hf => by cases hf; exact of_decide_eq_true hw
theorem setOutput (p : List Byte) : Statement (.setOutput p) := fun _ _ hw hf => by cases hf; exact of_decide_eq_true hw
theorem getCapabilities (p : List Byte) : Statement (.getCapabilities p) := fun _ _ hw hf => by cases hf; exact of_decide_eq_true hw
theorem loadConfigReserved (p : List Byte) : Statement (.loadConfigReserved p) := fun _ _ hw hf => by cases hf; exact of_decide_eq_true hw
theorem configAckReserved (p : List Byte) : Statement (.configAckReserved p) := fun _ _ hw hf => by cases hf; exact of_decide_eq_true hw
theorem unrecognized (id : FrameId) (p : List Byte) : Statement (.unrecognized id p) := fun _ _ hw hf => by
  cases hf; simp only [Instr.wf, Bool.and_eq_true] at hw; exact of_decide_eq_true hw.2
theorem pong (p : List Byte) : Statement (.pong p) := fun _ _ hw hf => by cases hf; exact of_decide_eq_true hw
theorem configData (p : List Byte) : Statement (.configData p) := fun _ _ hw hf => by cases hf; exact of_decide_eq_true hw
theorem flashAck (p : List Byte) : Statement (.flashAck p) := fun _ _ hw hf => by cases hf; exact of_decide_eq_true hw
theorem clearConfigAck (p : List Byte) : Statement (.clearConfigAck p) := fun _ _ hw hf => by cases hf; exact of_decide_eq_true hw
theorem binaryAck (p : List Byte) : Statement (.binaryAck p) := fun _ _ hw hf => by cases hf; exact of_decide_eq_true hw
theorem data (p : List Byte) : Statement (.data p) := fun _ _ hw hf => by cases hf; exact of_decide_eq_true hw
theorem outputAck (p : List Byte) : Statement (.outputAck p) := fun _ _ hw hf => by cases hf; exact of_decide_eq_true hw
theorem capabilities (p : List Byte) : Statement (.capabilities p) := fun _ _ hw hf => by cases hf; exact of_decide_eq_true hw
theorem ack (p : List Byte) : Statement (.ack p) := fun _ _ hw hf => by cases hf; exact of_decide_eq_true hw
theorem nack (p : List Byte) : Statement (.nack p) := fun _ _ hw hf => by cases hf; exact of_decide_eq_true hw
theorem crc16Step (c : U16) (b : Byte) : Statement (.crc16Step c b) := fun _ _ _ hf => by cases hf
theorem crc16 (l : List Byte) : Statement (.crc16 l) := fun _ _ _ hf => by cases hf
theorem crc32Step (c : U32) (b : Byte) : Statement (.crc32Step c b) := fun _ _ _ hf => by cases hf
theorem crc32 (l : List Byte) : Statement (.crc32 l) := fun _ _ _ hf => by cases hf
theorem ringPut (b : Byte) : Statement (.ringPut b) := fun _ _ _ hf => by cases hf
theorem ringGet : Statement .ringGet := fun _ _ _ hf => by cases hf
theorem beginSend : Statement .beginSend := fun _ _ _ hf => by cases hf
theorem appendByte (b : Byte) : Statement (.appendByte b) := fun _ _ _ hf => by cases hf
theorem endSend : Statement .endSend := fun _ _ _ hf => by cases hf
theorem spaceRemaining : Statement .spaceRemaining := fun _ _ _ hf => by cases hf
theorem nowMs : Statement .nowMs := fun _ _ _ hf => by cases hf
theorem feed (b : Byte) : Statement (.feed b) := fun _ _ _ hf => by cases hf
theorem drainAndRelease : Statement .drainAndRelease := fun _ _ _ hf => by cases hf
theorem tick : Statement .tick := fun _ _ _ hf => by cases hf
theorem dispatch (id : FrameId) (p : List Byte) : Statement (.dispatch id p) := fun _ _ _ hf => by cases hf
theorem reply (id : FrameId) (p : List Byte) (m : SendMode) : Statement (.reply id p m) := fun _ _ _ hf => by cases hf

end FrameEncoding

end Sys2Proof.Laws
end

