-- ==== Sys2Proof/Laws/Step.lean ====
section
/-! SUPPORT. What one step can do, said once: a step that goes on is an event of the environment, a called instruction, a
frame's instruction, or the running context's own step. -/

namespace Sys2Proof.Machine

/-- The move the schedule's next event makes. -/
theorem nextMove_cases (s : State) :
    (s.nextMove = s.runMove) ∨
    (∃ rest, s.schedule = .advance :: rest ∧ s.nextMove = (s.setSchedule rest).runMove) ∨
    (∃ c i rest, s.schedule = .call c i :: rest ∧ s.port.mayStart c = true ∧
      s.nextMove = .call i ((s.setSchedule rest).enter c)) ∨
    (∃ c b rest, s.schedule = .frame c b :: rest ∧ s.port.mayStart c = true ∧
      s.nextMove = .env ((s.setSchedule rest).deliver c b)) ∨
    (∃ c rest, s.schedule = .rxEntry c :: rest ∧ s.port.mayStart c = true ∧
      s.nextMove = (s.setSchedule rest).rxMove c) ∨
    (∃ e rest, s.schedule = e :: rest ∧ e.starts = false ∧ s.nextMove = .env ((s.setSchedule rest).act e)) := by
  unfold State.nextMove
  split
  · exact .inl rfl
  · exact .inr (.inl ⟨_, by assumption, rfl⟩)
  · split
    · exact .inr (.inr (.inl ⟨_, _, _, by assumption, by assumption, rfl⟩))
    · exact .inl rfl
  · split
    · exact .inr (.inr (.inr (.inl ⟨_, _, _, by assumption, by assumption, rfl⟩)))
    · exact .inl rfl
  · split
    · exact .inr (.inr (.inr (.inr (.inl ⟨_, _, by assumption, by assumption, rfl⟩))))
    · exact .inl rfl
  · rename_i e _ _ _ _ _ _
    exact .inr (.inr (.inr (.inr (.inr ⟨_, _, by assumption, by cases e <;> simp_all [Event.starts], rfl⟩))))

/-- The receive path's move: `feed` with RDR's byte, or nothing. -/
theorem rxMove_cases (s : State) (c : Ctx) :
    (s.port.uart.rxne = true ∧
      s.rxMove c = .call (.feed s.port.uart.rdr) ((s.setUart { s.port.uart with rxne := false }).enter c)) ∨
    (s.port.uart.rxne = false ∧ s.rxMove c = .env s) := by
  unfold State.rxMove
  cases h : s.port.uart.rxne
  · exact .inr ⟨rfl, by simp⟩
  · exact .inl ⟨rfl, by simp⟩

/-- The running context's move: its pending frame, or its step. -/
theorem runMove_cases (s : State) :
    (∃ b l, (s.enter s.port.running).stack = .dispatch b :: l ∧
      s.runMove = .frame b ((s.enter s.port.running).replaceTop (.awaiting .dispatch))) ∨
    ((∀ b l, (s.enter s.port.running).stack ≠ .dispatch b :: l) ∧
      s.runMove = .run (s.enter s.port.running)) := by
  unfold State.runMove
  simp only
  split
  · exact .inl ⟨_, _, by assumption, rfl⟩
  · rename_i h
    exact .inr ⟨fun b l e => h b l e, rfl⟩

/-- Everything a step that goes on can be. -/
theorem step_cases {s t : State} (h : step s = .next t) :
    s.fault = none ∧
    ((s.nextMove = .env t) ∨
     (∃ i u, s.nextMove = .call i u ∧ u.accepts i = true ∧ exec i u = .next t) ∨
     (∃ b i u, s.nextMove = .frame b u ∧ u.fetch b = .ok i ∧ exec i u = .next t) ∨
     (∃ u, s.nextMove = .run u ∧ u.advance.fault = none ∧ t = u.advance)) := by
  unfold step at h
  split at h
  · cases h
  · rename_i hf
    refine ⟨hf, ?_⟩
    split at h
    · rename_i u hm
      cases h
      exact .inl hm
    · rename_i i u hm
      split at h
      · exact .inr (.inl ⟨i, u, hm, by assumption, h⟩)
      · cases h
    · rename_i b u hm
      split at h
      · exact .inr (.inr (.inl ⟨b, _, u, hm, by assumption, h⟩))
      · cases h
    · rename_i u hm
      obtain ⟨h1, h2⟩ := State.settle_eq_next_iff.1 h
      exact .inr (.inr (.inr ⟨u, hm, h1, h2⟩))

end Sys2Proof.Machine
end

