-- ==== Sys2Proof/Tests/Slice0.lean ====
section
/-! SUPPORT. Tests: the WellFormed smoke, decoding of words written out from the spec, one or two small tests per
instruction with results from 95_test_vectors, and a witness for every statement that has hypotheses. -/

namespace Sys2Proof.Tests

open Sys2Proof.Machine

/-- A small instance of the OPEN parameters: TX_CAP = `tx` + 1, RX_CAP = `rx` + 2, an example ID_RESET and flash place. -/
def paramsOf (tx rx : Nat) : Config.Params where
  txCap := tx + 1
  rxCap := rx + 2
  idReset := 0x3D
  capDeviceType := 0x01
  capFwMajor := 0x01
  capFwMinor := 0x00
  capFwPatch := 0x00
  capHbridgeCount := 0x00
  capCanCount := 0x00
  sectorBase := 0x1000
  sectorSize := 4096
  recordAddr := 0x1004
  flashPad := 0xFF
  flashErased := 0xFF
  wdtTimeoutMs := 1000
  crc32 := Config.crc32IsoHdlc
  reliability := .relOnce
  codec := .min
  exec := .blobStore
  nPorts := 2
  txCap_pos := Nat.le_add_left _ _
  rxCap_two := Nat.le_add_left _ _
  idReset_free := by decide
  record_aligned := by decide
  record_low := by decide
  record_high := by decide
  nPorts_pos := by decide

/-- The vectors' start state with TX_CAP = 4 and RX_CAP = 4. -/
def s4 : State := State.initial (paramsOf 3 2)
/-- The same with TX_CAP = 400. -/
def s400 : State := State.initial (paramsOf 399 2)
/-- `s4` under the OPEN reliability relation. -/
def sOpen : State := State.initial { paramsOf 3 2 with reliability := .openRel }
/-- `s4` with an executor other than the default. -/
def sExec : State := State.initial { paramsOf 3 2 with exec := .other 0 }

/-- The state after an instruction that goes on. -/
def after (i : Instr) (s : State) : Option State :=
  match exec i s with
  | .next t => some t
  | .fault _ => none
  | .refused _ => none

/-- The state after a step that goes on. -/
def stepped (s : State) : Option State :=
  match step s with
  | .next t => some t
  | .fault _ => none
  | .refused _ => none

/-- The frame a handler hands to the transport: id byte and payload. -/
def sentFrame (o : Option State) : Option (FrameId × List Byte) :=
  match o.map State.stack with
  | some (.transmit (.spaceTest f) :: .awaiting .reply :: _) => some (f.id, f.payload)
  | _ => none

/-- A running context M with stack `l`. -/
def busy (l : List Activation) (s : State) : State := s.setStack l

/-- A batch `buf` in flight, owned by M. -/
def batch (buf : List Byte) (s : State) : State :=
  s.setTx { s.port.tx with buf := buf, inProgress := true, owner := some .m }

/-- A ring of RX_CAP = 4 holding 41 42 43. -/
def ring3 : Ring := { buf := [0x41, 0x42, 0x43, 0x00], head := 3, tail := 0 }

/-! ### WellFormed (30_encoding R100, R104, R110) -/

theorem test_wf_payload_256_refused :
    ([Instr.ping, .reset, .getConfig, .saveConfig, .clearConfig, .loadBinary, .startStream, .stopStream, .setOutput,
      .getCapabilities, .loadConfigReserved, .configAckReserved, .unrecognized 0x05, .pong, .configData, .flashAck,
      .clearConfigAck, .binaryAck, .data, .outputAck, .capabilities, .ack, .nack, .dispatch 0x01,
      fun p => .reply 0x02 p .rel].all fun c => !(c (List.replicate 256 0)).wf 0x3D) = true := by decide +kernel
theorem test_wf_payload_255_accepted : (Instr.ping (List.replicate 255 0)).wf 0x3D = true := by decide +kernel
theorem test_wf_unrecognized_named_refused : (Instr.unrecognized 0x01 []).wf 0x3D = false := by decide
theorem test_wf_unrecognized_reserved_refused : (Instr.unrecognized 0x12 []).wf 0x3D = false := by decide
theorem test_wf_unrecognized_reset_refused : (Instr.unrecognized 0x3D []).wf 0x3D = false := by decide
theorem test_wf_unrecognized_free_accepted : (Instr.unrecognized 0x05 []).wf 0x3D = true := by decide
theorem test_ill_formed_call_refused :
    step (s4.setSchedule [.call .m (.unrecognized 0x01 [])]) = .refused .illFormed := by rfl

/-! ### Decoding, from the encodings of R101 to R106 and R273 (wire bytes of 95_test_vectors CD, DS) -/

theorem test_decode_ping : decode 0x3D [0x01, 0x00, 0x58] = .ok (.ping [], [0x58]) := by rfl
theorem test_decode_reset : decode 0x3D [0x3D, 0x00] = .ok (.reset [], []) := by rfl
theorem test_decode_getConfig : decode 0x3D [0x10, 0x00] = .ok (.getConfig [], []) := by rfl
theorem test_decode_saveConfig : decode 0x3D [0x14, 0x00] = .ok (.saveConfig [], []) := by rfl
theorem test_decode_clearConfig : decode 0x3D [0x16, 0x00] = .ok (.clearConfig [], []) := by rfl
theorem test_decode_loadBinary :
    decode 0x3D [0x18, 0x04, 0x00, 0x00, 0x01, 0x00] = .ok (.loadBinary [0x00, 0x00, 0x01, 0x00], []) := by rfl
theorem test_decode_startStream : decode 0x3D [0x20, 0x02, 0xC8, 0x00] = .ok (.startStream [0xC8, 0x00], []) := by rfl
theorem test_decode_stopStream : decode 0x3D [0x21, 0x00] = .ok (.stopStream [], []) := by rfl
theorem test_decode_setOutput : decode 0x3D [0x28, 0x02, 0x03, 0x01] = .ok (.setOutput [0x03, 0x01], []) := by rfl
theorem test_decode_getCapabilities : decode 0x3D [0x30, 0x00] = .ok (.getCapabilities [], []) := by rfl
theorem test_decode_loadConfigReserved : decode 0x3D [0x12, 0x00] = .ok (.loadConfigReserved [], []) := by rfl
theorem test_decode_configAckReserved : decode 0x3D [0x13, 0x00] = .ok (.configAckReserved [], []) := by rfl
theorem test_decode_unrecognized : decode 0x3D [0x05, 0x00] = .ok (.unrecognized 0x05 [], []) := by rfl
theorem test_decode_pong : decode 0x3D [0x02, 0x00] = .ok (.pong [], []) := by rfl
theorem test_decode_configData :
    decode 0x3D [0x11, 0x06, 0x00, 0x00, 0x01, 0x00, 0x00, 0x00] =
      .ok (.configData [0x00, 0x00, 0x01, 0x00, 0x00, 0x00], []) := by rfl
theorem test_decode_flashAck : decode 0x3D [0x15, 0x01, 0x01] = .ok (.flashAck [0x01], []) := by rfl
theorem test_decode_clearConfigAck : decode 0x3D [0x17, 0x01, 0x01] = .ok (.clearConfigAck [0x01], []) := by rfl
theorem test_decode_binaryAck :
    decode 0x3D [0x19, 0x04, 0x01, 0x00, 0x1E, 0x00] = .ok (.binaryAck [0x01, 0x00, 0x1E, 0x00], []) := by rfl
theorem test_decode_data : decode 0x3D [0x22, 0x00] = .ok (.data [], []) := by rfl
theorem test_decode_outputAck : decode 0x3D [0x29, 0x02, 0x03, 0x01] = .ok (.outputAck [0x03, 0x01], []) := by rfl
theorem test_decode_capabilities : decode 0x3D [0x31, 0x00] = .ok (.capabilities [], []) := by rfl
theorem test_decode_ack : decode 0x3D [0x3E, 0x01, 0x20] = .ok (.ack [0x20], []) := by rfl
theorem test_decode_nack : decode 0x3D [0x3F, 0x02, 0x05, 0x01] = .ok (.nack [0x05, 0x01], []) := by rfl
theorem test_decode_bit6_ignored : decode 0x3D [0x41, 0x00] = .ok (.ping [], []) := by rfl
theorem test_decode_sequenced_refused : decode 0x3D [0x81, 0x07, 0x00] = .error .sequenced := by rfl
theorem test_decode_short_refused : decode 0x3D [0x28, 0x02, 0x03] = .error .shortPayload := by rfl
theorem test_decode_empty_refused : decode 0x3D [] = .error .noId ∧ decode 0x3D [0x01] = .error .noLength := ⟨rfl, rfl⟩

/-- A table word runs as the first instruction after reset, whatever the OPEN parameters are. -/
theorem test_fetch_word : step (State.reset.withFetchWord 8 0x01) =
    exec (.ping []) (State.reset.setStack [.awaiting .dispatch]) := by rfl

/-! ### CRC (40_crc R141 to R152; 95 CRC16, CRC32) -/

theorem test_crc16Step : (after (.crc16Step 0xFFFF 0x01) s4).map State.ret = some (.crc16 0xF1D1) := by decide
theorem test_crc16Step_zero : crc16Step 0x0000 0x01 = 0x1021 := by decide
theorem test_crc16 : (after (.crc16 [0x31, 0x32, 0x33, 0x34, 0x35, 0x36, 0x37, 0x38, 0x39]) s4).map State.ret =
    some (.crc16 0x29B1) := by decide +kernel
theorem test_crc16_empty : crc16 [] = 0xFFFF := by decide
theorem test_crc32Step : (after (.crc32Step 0xFFFFFFFF 0x31) s4).map State.ret = some (.crc32 0x7C231048) := by decide +kernel
theorem test_crc32 : (after (.crc32 [0x31, 0x32, 0x33, 0x34, 0x35, 0x36, 0x37, 0x38, 0x39]) s4).map State.ret =
    some (.crc32 0xCBF43926) := by decide +kernel
theorem test_crc32_ones : crc32 Config.crc32IsoHdlc [0xFF, 0xFF, 0xFF, 0xFF] = 0xFFFFFFFF := by decide +kernel

/-! ### Ring (95 RG) -/

theorem test_ringPut_full : (after (.ringPut 0x44) (s4.setRx ring3)).map (fun t => (t.port.rx, t.ret)) =
    some (ring3, .put false) := by decide
theorem test_ringPut_wraps :
    (after (.ringPut 0x45) (s4.setRx { ring3 with tail := 1 })).map (fun t => (t.port.rx.head, t.port.rx.unread 4)) =
      some (0, [0x42, 0x43, 0x45]) := by decide
theorem test_ringGet : (after .ringGet (s4.setRx ring3)).map (fun t => (t.ret, t.port.rx.unread 4)) =
    some (.byte 0x41, [0x42, 0x43]) := by decide
theorem test_ringGet_wraps :
    (after .ringGet (s4.setRx { buf := [0x46, 0x42, 0x43, 0x45], head := 0, tail := 3 })).map
      (fun t => (t.ret, t.port.rx.tail)) = some (.byte 0x45, 0) := by decide

/-! ### Batch (95 TX) -/

theorem test_beginSend : (after .beginSend s4).map (fun t => (t.port.tx, t.ret)) =
    some ({ buf := [], inProgress := true, owner := some .m, rejectedM := false, rejectedI := false }, .begun true) := by
  decide
theorem test_beginSend_busy : (after .beginSend ((batch [0x01] s4).setCtx .i)).map (fun t => (t.port.tx, t.ret)) =
    some ({ buf := [0x01], inProgress := true, owner := some .m, rejectedM := false, rejectedI := true },
      .begun false) := by decide
theorem test_appendByte_full : (after (.appendByte 0x05) (batch [0x01, 0x02, 0x03, 0x04] s4)).map (·.port.tx.buf) =
    some [0x01, 0x02, 0x03, 0x04] := by decide
theorem test_appendByte_foreign :
    exec (.appendByte 0x00) ((batch [0x01] s4).setCtx .i) = .fault .txForeignBatch := by rfl
theorem test_endSend_first_byte : (after .endSend (batch [0x3F, 0x02] s4)).map
    (fun t => (t.port.uart.sent, t.port.uart.txe, t.stack)) = some ([0x3F], false, [.endSend (.txByte 1)]) := by decide
theorem test_endSend_no_batch : (after .endSend s4).map (fun t => (t.port.uart.sent, t.stack)) = some ([], []) := by
  decide
theorem test_spaceRemaining : (after .spaceRemaining (batch [0, 0, 0, 0, 0, 0, 0, 0, 0, 0] s400)).map State.ret =
    some (.space 390) := by decide
theorem test_spaceRemaining_idle : (after .spaceRemaining s4).map State.ret = some (.space 4) := by decide
theorem test_nowMs : (after .nowMs { s4 with clock := 5000 }).map State.ret = some (.time 5000) := by decide

/-! ### Feed, drain, tick (95 FD, TK) -/

theorem test_feed_polls : (after (.feed 0x01) s4).map (fun t => (t.port.rxBusy, t.stack)) =
    some (true, [.poll 0x01, .feed]) := by decide
theorem test_feed_deferred : (after (.feed 0x55) ((s4.setRxBusy true).setRx ring3)).map (fun t => (t.port.rx, t.stack)) =
    some (ring3, []) := by decide
theorem test_drain_releases : (after .drainAndRelease (s4.setRxBusy true)).map (fun t => (t.port.rxBusy, t.stack)) =
    some (false, []) := by decide
theorem test_drain_polls : (after .drainAndRelease ((s4.setRxBusy true).setRx ring3)).map
    (fun t => (t.port.rxBusy, t.stack)) = some (true, [.poll 0x41, .drain]) := by decide
theorem test_tick_skipped : (after .tick (s4.setRxBusy true)).map (fun t => (t.ret, t.stack)) = some (.skipped, []) := by
  decide
theorem test_tick_starts : (after .tick s4).map State.stack = some [.housekeeping, .tick .decide] := by decide
/-- TK: last 0xFFFFFFFB, period 10: at 5 due, at 4 not. -/
theorem test_stream_due :
    let t : Stream := { active := true, periodMs := 10, lastEmitTick := 0xFFFFFFFB, counter := 0 }
    t.due 0x00000005 = true ∧ t.due 0x00000004 = false := by decide

/-- R184, R45: the receive path takes RDR's byte into `feed` and RXNE falls; without a byte nothing starts. -/
theorem test_rxEntry :
    (stepped ((s4.setUart { s4.port.uart with rxne := true, rdr := 0x42 }).setSchedule [.rxEntry .i])).map
      (fun t => (t.port.uart.rxne, t.port.ctxI.stack)) = some (false, [.poll 0x42, .feed]) ∧
    (stepped (s4.setSchedule [.rxEntry .i])).map (fun t => (t.port.ctxI.stack, t.schedule)) = some ([], []) := by decide
/-- R224: a byte held in the UART at a reset is lost. -/
theorem test_reset_loses_uart_byte :
    (systemReset (s4.setUart { s4.port.uart with rxne := true, rdr := 0x42 })).port.uart.rxne = false := by decide

/-! ### Handlers (95 DS) -/

theorem test_ping : sentFrame (after (.ping [0x01, 0x02]) s4) = some (0x02, []) := by decide
theorem test_reset : sentFrame (after (.reset []) s4) = some (0x3E, [0x3D]) := by decide
theorem test_getConfig_empty : sentFrame (after (.getConfig []) s4) = some (0x11, [0, 0, 1, 0, 0, 0]) := by decide
theorem test_getConfig : sentFrame (after (.getConfig []) (s4.setBlob [1, 2, 3])) = some (0x11, [0, 0, 1, 0, 1, 2, 3]) := by
  decide
theorem test_loadBinary_short : sentFrame (after (.loadBinary [0, 0, 1]) s4) = some (0x3F, [0x18, 0x02]) := by decide
theorem test_loadBinary : (after (.loadBinary [0, 0, 1, 0, 1, 2, 3]) (s4.setBlob [9, 9, 9, 9])).map (·.blob) =
    some [1, 2, 3] := by decide
/-- DS6 with a healthy flash: ST1's record, 1 byte of padding left erased because FLASH_PAD = FLASH_ERASED here. -/
theorem test_saveConfig :
    (after (.saveConfig []) ((s4.setBlob [1, 2, 3]).setFlash
      { s4.flash with eraseScript := [.done], programScript := [true, true, true] })).map (·.flash.cells) =
      some [(0x1004, 0x46), (0x1005, 0x4E), (0x1006, 0x4F), (0x1007, 0x43), (0x1008, 0x03), (0x1009, 0x00),
        (0x100A, 0xAD), (0x100B, 0xAD), (0x100C, 0x01), (0x100D, 0x02), (0x100E, 0x03)] := by decide +kernel
theorem test_saveConfig_empty : sentFrame (after (.saveConfig []) s4) = some (0x15, [0x00]) := by decide
theorem test_clearConfig :
    (after (.clearConfig []) ((s4.setBlob [1]).setFlash
      { s4.flash with cells := [(0x1004, 0x46)], eraseScript := [.done] })).map (fun t => (t.blob, t.flash.cells)) =
      some ([], []) := by decide
theorem test_startStream :
    (after (.startStream [0xC8, 0x00]) { s4 with clock := 1000 }).map (·.port.stream) =
      some { active := true, periodMs := 10, lastEmitTick := 1000, counter := 0 } := by decide
theorem test_startStream_absent : (after (.startStream [0x01]) s4).map (·.port.stream.periodMs) = some 100 := by decide
theorem test_stopStream : sentFrame (after (.stopStream []) s4) = some (0x3E, [0x21]) := by decide
theorem test_setOutput : (after (.setOutput [0x03, 0x01, 0xFF]) s4).map (·.driver.requests) = some [(0x03, 0x01)] := by
  decide
theorem test_setOutput_short : sentFrame (after (.setOutput [0x03]) s4) = some (0x3F, [0x28, 0x02]) := by decide
theorem test_getCapabilities : sentFrame (after (.getCapabilities []) s4) =
    some (0x31, [0x01, 0x01, 0x00, 0x00, 0x1E, 0x14, 0x08, 0x00, 0x00, 0x00]) := by decide
theorem test_unrecognized : sentFrame (after (.unrecognized 0x05 []) s4) = some (0x3F, [0x05, 0x01]) := by decide
/-- DS23 to DS27 and the other reply ids: NACK [id, 01]. -/
theorem test_reply_ids_nacked :
    ([.loadConfigReserved [], .configAckReserved [], .pong [], .configData [], .flashAck [], .clearConfigAck [],
      .binaryAck [], .data [], .outputAck [], .capabilities [], .ack [0x20], .nack [0x05, 0x01]].map
        fun i => sentFrame (after i s4)) =
      [0x12, 0x13, 0x02, 0x11, 0x15, 0x17, 0x19, 0x22, 0x29, 0x31, 0x3E, 0x3F].map
        fun id => some (0x3F, [id, 0x01]) := by decide
theorem test_dispatch : sentFrame (after (.dispatch 0x21 []) s4) = some (0x3E, [0x21]) := by decide
theorem test_reply_queued : (after (.reply 0x3E [0x20] .rel) sOpen).map (·.port.transport.relQueue) =
    some [⟨0x3E, [0x20]⟩] := by decide

/-! ### Codec and telemetry (95 CD, S7; 43 R286; 45 R355) -/

theorem test_wire_ping : minWire Config.crc32IsoHdlc ⟨0x01, none, []⟩ =
    [0xAA, 0xAA, 0xAA, 0x01, 0x00, 0x58, 0xC2, 0x23, 0xBE, 0x55] := by decide +kernel
theorem test_wire_stuffed : minWire Config.crc32IsoHdlc ⟨0x01, none, [0xAA, 0xAA, 0xAA]⟩ =
    [0xAA, 0xAA, 0xAA, 0x01, 0x03, 0xAA, 0xAA, 0x55, 0xAA, 0x5F, 0xF3, 0xB7, 0x60, 0x55] := by decide +kernel
theorem test_wire_reliable : minWire Config.crc32IsoHdlc ⟨0x01, some 0x07, []⟩ =
    [0xAA, 0xAA, 0xAA, 0x81, 0x07, 0x00, 0x50, 0xF7, 0x3E, 0x62, 0x55] := by decide +kernel
/-- CD8, CD5 and CD6 each followed by Ping. -/
theorem test_receive_stuffed : (Receiver.receiveAll Config.crc32IsoHdlc Receiver.reset
    [0xAA, 0xAA, 0xAA, 0x01, 0x03, 0xAA, 0xAA, 0x55, 0xAA, 0x5F, 0xF3, 0xB7, 0x60, 0x55]).2 =
      [⟨0x01, none, [0xAA, 0xAA, 0xAA]⟩] := by decide +kernel
theorem test_receive_abort : (Receiver.receiveAll Config.crc32IsoHdlc Receiver.reset
    ([0xAA, 0xAA, 0xAA, 0x01, 0x02, 0xAA, 0xAA, 0x12] ++
      [0xAA, 0xAA, 0xAA, 0x01, 0x00, 0x58, 0xC2, 0x23, 0xBE, 0x55])).2 = [⟨0x01, none, []⟩] := by decide +kernel
theorem test_receive_bad_eof : (Receiver.receiveAll Config.crc32IsoHdlc Receiver.reset
    ([0xAA, 0xAA, 0xAA, 0x01, 0x00, 0x58, 0xC2, 0x23, 0xBE, 0x56] ++
      [0xAA, 0xAA, 0xAA, 0x01, 0x00, 0x58, 0xC2, 0x23, 0xBE, 0x55])).2 = [⟨0x01, none, []⟩] := by decide +kernel
/-- S7: counter 7, now 120000, all outputs 1 but channel 3 = 2. -/
theorem test_snapshot :
    ({ s4 with driver := { s4.driver with state := (Vector.replicate 30 1).set 3 2 } } : State).snapshot 7 120000 =
      [0x07, 0x00, 0x00, 0x00, 0xC0, 0xD4, 0x01, 0x00, 0x01, 0x01, 0x01, 0x02] ++ List.replicate 26 0x01 ++
      List.replicate 41 0x00 ++ [0x78] ++ List.replicate 26 0x00 := by decide

/-! ### Witnesses: a concrete state and operands that meet a statement's hypotheses -/

/-- DecodeInvertsEncode, with the longest payload and a short one. -/
theorem test_witness_decodeInvertsEncode :
    (0x3D : FrameId) ∉ Config.takenIds ∧ (Instr.ping (List.replicate 255 0)).wf 0x3D = true ∧
      (encode 0x3D (.ping (List.replicate 255 0))).isSome = true ∧
      encode 0x3D (.setOutput [0x03, 0x01]) = some [0x28, 0x02, 0x03, 0x01] := by decide +kernel
/-- EncodeInvertsDecode. -/
theorem test_witness_encodeInvertsDecode :
    (0x3D : FrameId) ∉ Config.takenIds ∧ (0x3D : Byte).getLsbD 6 = false ∧
      decode 0x3D (0x3D :: 0x00 :: [0x07]) = .ok (.reset [], [0x07]) := ⟨by decide, by decide, rfl⟩
/-- SpecFramesDecode. -/
theorem test_witness_specFramesDecode : (0x05 : FrameId) ∉ Config.takenIds := by decide
/-- StepRunsDeliveredFrame. -/
theorem test_witness_stepRunsDeliveredFrame :
    let s := (busy [.dispatch [0x01, 0x00], .delivered, .feed] s4).setSchedule [.advance, .uartTxe]
    s.fault = none ∧ s.schedule = [.advance, .uartTxe] ∧
      (s.port.context s.port.running).stack = .dispatch [0x01, 0x00] :: [.delivered, .feed] ∧
      decode s.params.idReset [0x01, 0x00] = .ok (.ping [], []) := ⟨rfl, rfl, rfl, rfl⟩
/-- StepRunsCalledOperation. -/
theorem test_witness_stepRunsCalledOperation :
    let s := s4.setSchedule [.call .i .tick]
    s.fault = none ∧ s.schedule = [.call .i .tick] ∧ s.port.mayStart .i = true ∧
      Instr.tick.wf s.params.idReset = true := by decide
/-- InterruptRunsToCompletion, with an empty schedule, with `advance`, and with entries that wait. -/
theorem test_witness_interruptRunsToCompletion :
    let s := (s4.setCtx .i).setStack [.housekeeping, .tick .decide]
    s.port.ctxI.stack ≠ [] ∧ s.schedule = [] ∧ (stepped s).isSome = true ∧
      (stepped (s.setSchedule [.advance])).isSome = true ∧
      (∀ e ∈ [Event.call .m .tick, .frame .i [0x01, 0x00], .rxEntry .m], e.starts = true ∧
        (stepped (s.setSchedule [e])).isSome = true) := by decide
/-- FaultIsSticky. -/
theorem test_witness_faultIsSticky : (s4.raise .txForeignBatch).fault = some .txForeignBatch := by decide
/-- A port of the witnesses below is within the bounds. -/
theorem test_idle_port_ok (k : Nat) : (Port.reset (paramsOf 3 2) 0 k []).ok (paramsOf 3 2) :=
  ⟨⟨Nat.zero_le _, fun _ => ⟨rfl, rfl, rfl⟩⟩, ⟨rfl, Nat.zero_lt_succ _, Nat.zero_lt_succ _⟩,
    ⟨show 10 ≤ (100 : U32).toNat by decide, show (100 : U32).toNat ≤ 1000 by decide⟩, minCodec.init_ok⟩
/-- StepKeepsBounds: two idle ports and an entry to come. -/
theorem test_witness_stepKeepsBounds :
    (s4.setSchedule [.call .m (.feed 0xAA)]).Inv ∧ (stepped (s4.setSchedule [.call .m (.feed 0xAA)])).isSome = true ∧
      ∀ k rest, (s4.setSchedule [.call .m (.feed 0xAA)]).schedule ≠ .selectPort k :: rest := by
  refine ⟨⟨test_idle_port_ok 0, fun q hq => ?_, by decide, by decide, by decide, fun _ h => nomatch h⟩, by decide, ?_⟩
  · rw [List.mem_singleton.1 (show q ∈ [Port.reset (paramsOf 3 2) 0 1 []] from hq)]
    exact test_idle_port_ok 1
  · rintro k rest ⟨⟩
/-- OrderlyNeverFaults: two idle ports, an entry and a received byte to come. -/
theorem test_witness_orderlyNeverFaults : (s4.setSchedule [.call .i (.feed 0xAA), .uartRx 0x01]).Orderly := by
  have idle : ∀ k, (Port.reset (paramsOf 3 2) 0 k []).orderly := fun _ =>
    ⟨.inl rfl, by simp [Port.reset, Context.reset], fun c h => absurd rfl (by cases c <;> exact h),
      ⟨fun h => (nomatch h), fun ⟨c, a, h, _⟩ => by cases c <;> cases h⟩,
      fun c a h _ => (by cases c <;> cases h), rfl, rfl, minCodec.init_ok⟩
  refine ⟨rfl, by decide, idle 0, fun q hq => ?_⟩
  rw [List.mem_singleton.1 (show q ∈ [Port.reset (paramsOf 3 2) 0 1 []] from hq)]
  exact idle 1
/-- Crc16DetectsOneByte and Crc32DetectsOneByte. -/
theorem test_witness_crcDetectsOneByte : (0x02 : Byte) ≠ 0x03 := by decide
/-- RingPut: a full ring and one with room. -/
theorem test_witness_ringPut :
    (ring3.ok 4 ∧ (ring3.head + 1) % 4 = ring3.tail) ∧
      ({ ring3 with tail := 1 } : Ring).ok 4 ∧ (ring3.head + 1) % 4 ≠ 1 := by
  refine ⟨⟨⟨by decide, by decide, by decide⟩, by decide⟩, ⟨by decide, by decide, by decide⟩, by decide⟩
/-- RingGet: the indices at their largest. -/
theorem test_witness_ringGet :
    ({ ring3 with head := 0, tail := 3 } : Ring).ok (s4.setRx { ring3 with head := 0, tail := 3 }).params.rxCap ∧
      (s4.setRx { ring3 with head := 0, tail := 3 }).port.rx.head ≠
        (s4.setRx { ring3 with head := 0, tail := 3 }).port.rx.tail := by
  refine ⟨⟨by decide, by decide, by decide⟩, by decide⟩
/-- RingGetOnEmptyRefused. -/
theorem test_witness_ringGetOnEmpty : s4.port.rx.head = s4.port.rx.tail := by decide
/-- RingKeepsTheFirstBytes: an empty ring at its last index. -/
theorem test_witness_ringKeepsTheFirstBytes :
    2 ≤ 4 ∧ ({ ring3 with tail := 3 } : Ring).ok 4 ∧ ({ ring3 with tail := 3 } : Ring).head = 3 := by
  refine ⟨by decide, ⟨by decide, by decide, by decide⟩, by decide⟩
/-- BeginSend: both clauses. -/
theorem test_witness_beginSend : s4.port.tx.inProgress = false ∧ (batch [] s4).port.tx.inProgress = true := by decide
/-- AppendByte and EndSendEntryCheck: no batch, another context's batch, a refused caller, the owner's batch with room and
full. -/
theorem test_witness_appendByte :
    s4.fault = none ∧ s4.port.tx.inProgress = false ∧ (batch [] s4).port.tx.inProgress = true ∧
      (batch [] (s4.setCtx .i)).port.tx.owner ≠ some .i ∧
      ({ (batch [] s4).port.tx with rejectedM := true } : TxBatch).rejected .m = true ∧
      (batch [0] s4).port.tx.owner = some s4.ctx ∧ (batch [0] s4).port.tx.rejected s4.ctx = false ∧
      (batch [0] s4).port.tx.len ≠ s4.params.txCap ∧ (batch [0, 0, 0, 0] s4).port.tx.len = s4.params.txCap := by decide
/-- EndSendStarts: with TXE and without, with a received byte and without. -/
theorem test_witness_endSendStarts :
    let s := batch [0x3F, 0x02] s4
    s.fault = none ∧ s.port.tx.inProgress = true ∧ s.port.tx.owner = some s.ctx ∧ s.port.tx.rejected s.ctx = false ∧
      s.port.tx.buf = 0x3F :: [0x02] ∧ s.port.uart.txe = true ∧ s.port.uart.rxne = false ∧
      (s.setUart { s.port.uart with txe := false, rxne := true }).port.tx = s.port.tx := by decide
/-- EndSendWithoutBytes: the guard free and held. -/
theorem test_witness_endSendWithoutBytes :
    let s := batch [] s4
    s.fault = none ∧ s.port.tx.inProgress = true ∧ s.port.tx.owner = some s.ctx ∧ s.port.tx.rejected s.ctx = false ∧
      s.port.tx.buf = [] ∧ s.port.rxBusy = false ∧ (s.setRxBusy true).port.rxBusy = true := by decide
/-- BatchLeavesInOrder, from the first byte and from the last. -/
theorem test_witness_batchLeavesInOrder :
    let s := (busy [.endSend (.txByte 0)] (batch [0x3F, 0x02] s4)).setSchedule (batchEvents 2 ++ [])
    let u := (busy [.endSend (.txByte 1)] (batch [0x3F, 0x02] s4)).setSchedule (batchEvents 1 ++ [])
    s.fault = none ∧ 0 < s.port.tx.len ∧ 1 < u.port.tx.len ∧
      (s.port.context s.port.running).stack = .endSend (.txByte 0) :: [] ∧
      (u.port.context u.port.running).stack = .endSend (.txByte 1) :: [] ∧ s.port.uart.rxne = false ∧
      s.schedule = batchEvents (s.port.tx.len - 0) ++ [] ∧ u.schedule = batchEvents (u.port.tx.len - 1) ++ [] := by decide
/-- SilentUartMeansWaiting: without TXE, and without TC. -/
theorem test_witness_silentUart :
    let u := { s4.port.uart with txe := false, tc := false }
    let s := busy [.endSend (.txByte 0)] ((batch [0x3F] s4).setUart u)
    let v := busy [.endSend .txTc] ((batch [0x3F] s4).setUart u)
    s.fault = none ∧ s.schedule = [] ∧ (s.port.context s.port.running).stack = .endSend (.txByte 0) :: [] ∧
      s.port.uart.rxne = false ∧ s.port.uart.txe = false ∧
      (v.port.context v.port.running).stack = .endSend .txTc :: [] ∧ v.port.uart.tc = false := by decide
/-- WaitCapturesReceivedByte, in both phases. -/
theorem test_witness_waitCaptures :
    let u := { s4.port.uart with rxne := true, rdr := 0x55 }
    let s := busy [.endSend (.txByte 0)] ((batch [0x3F] s4).setUart u)
    let v := busy [.endSend .txTc] ((batch [0x3F] s4).setUart u)
    s.fault = none ∧ s.schedule = [] ∧ (s.port.context s.port.running).stack = .endSend (.txByte 0) :: [] ∧
      s.port.uart.rxne = true ∧ (stepped s).isSome = true ∧
      (v.port.context v.port.running).stack = .endSend .txTc :: [] ∧ (stepped v).isSome = true := by decide
/-- FeedDefersOrPolls: a batch in progress, the guard held, neither. -/
theorem test_witness_feed :
    (batch [] s4).port.tx.inProgress = true ∧ (s4.setRxBusy true).port.rxBusy = true ∧
      s4.port.tx.inProgress = false ∧ s4.port.rxBusy = false := by decide
/-- DrainAndRelease: an empty ring and one with bytes, and each operation that drains on top. -/
theorem test_witness_drainAndRelease :
    s4.port.rx.ok s4.params.rxCap ∧ s4.port.rx.unread s4.params.rxCap = [] ∧
      (s4.setRx ring3).port.rx.ok s4.params.rxCap ∧
      (s4.setRx ring3).port.rx.unread s4.params.rxCap = 0x41 :: [0x42, 0x43] ∧
      ∀ a ∈ [Activation.feed, .tick .drain, .endSend .drain, .drain],
        ∀ s ∈ [busy [a] s4, busy [a] (s4.setRx ring3)],
          s.fault = none ∧ s.schedule = [] ∧ (s.port.context s.port.running).stack = a :: [] ∧
            s.port.rx.buf.length = s.params.rxCap ∧ s.port.rx.head < s.params.rxCap ∧ s.port.rx.tail < s.params.rxCap := by
  refine ⟨⟨by decide, by decide, by decide⟩, by decide, ⟨by decide, by decide, by decide⟩, by decide, by decide⟩
/-- PollDeliversFrames: a byte that completes nothing, the last byte of a frame, unreliable and sequenced, under both
relations, and a handled frame. -/
theorem test_witness_pollDeliversFrames :
    let s := busy [.poll 0x55, .feed] s4
    let d : Receiver := { Receiver.reset with st := .eof, idc := 0x01 }
    s.fault = none ∧ s.schedule = [] ∧ (s.port.context s.port.running).stack = .poll 0x55 :: [.feed] ∧
      [Activation.feed].all (fun a => !a.inTransport) = true ∧
      (s.port.context s.port.running.other).stack.all (fun a => !a.inTransport) = true ∧
      s.params.reliability = .relOnce ∧ sOpen.params.reliability = .openRel ∧ s.params.codec = .min ∧
      (s.port.transport.receive s.params 0x55).2 = none ∧
      ({ s.port.transport with rx := d }.receive s.params 0x55).2 = some ⟨0x01, none, []⟩ ∧
      ({ s.port.transport with rx := { d with idc := 0x81 } }.receive s.params 0x55).2 = some ⟨0x01, some 0, []⟩ ∧
      ((busy [.delivered, .feed] s4).port.context .m).stack = .delivered :: [.feed] := by decide
/-- ReenteredTransportFaults: within one context, and across the two. -/
theorem test_witness_reentered :
    let s := busy [.poll 0x00, .delivered, .feed] s4
    let v := ((busy [.delivered, .feed] s4).setCtx .i).setStack [.housekeeping]
    s.fault = none ∧ s.schedule = [] ∧
      (s.port.context s.port.running).stack = .poll 0x00 :: [.delivered, .feed] ∧
      [Activation.delivered, .feed].any Activation.inTransport = true ∧
      (v.port.context v.port.running).stack = .housekeeping :: [] ∧
      (v.port.context v.port.running.other).stack.any Activation.inTransport = true := by decide
/-- ReceiverInvertsWire and WireLengthBound: the longest payload, a receiver in the middle of a frame. The bytes of the
second clause may be any. -/
theorem test_witness_receiverInvertsWire :
    ({ Receiver.reset with st := .pay, rem := 3 } : Receiver).seen = 0 ∧ (List.replicate 255 (0xAA : Byte)).length ≤ 255 := by
  decide +kernel
/-- SentFrameIsOnTheWire: an empty Pong, with the UART busy and ready; a frame too long for the batch; and one that meets a
batch in flight. -/
theorem test_witness_sentFrame :
    let f : TxFrame := ⟨0x02, none, []⟩
    let v := busy [.transmit (.spaceTest f), .feed] s4
    let w := batch [0x41] (busy [.transmit (.beginBatch f), .feed] s4)
    (∀ ready ∈ [false, true],
      let k := if ready then 9 else 10
      let s := ((((busy [.transmit (.spaceTest f), .awaiting .reply, .feed] s400).setRxBusy true).setUart
        { s400.port.uart with txe := ready }).setSchedule (List.replicate (10 + 3) .advance ++ batchEvents k ++ []))
      s.fault = none ∧ s.params.codec = .min ∧
        (s.port.context s.port.running).stack = .transmit (.spaceTest f) :: [.awaiting .reply, .feed] ∧
        s.port.tx.inProgress = false ∧ s.port.tx.rejectedM = false ∧ s.port.tx.rejectedI = false ∧
        s.port.rxBusy = true ∧ s.port.uart.rxne = false ∧ f.payload.length + 11 ≤ s.params.txCap ∧
        (minWire s.params.crc32 f).length = 10 ∧ 10 ≤ s.params.txCap ∧
        s.schedule = List.replicate (10 + 3) .advance ++ batchEvents (if s.port.uart.txe then 10 - 1 else 10) ++ []) ∧
    (v.fault = none ∧ v.schedule = [] ∧ (v.port.context v.port.running).stack = .transmit (.spaceTest f) :: [.feed] ∧
      v.port.tx.inProgress = false ∧ v.params.txCap < f.payload.length + wireOverhead v.params) ∧
    (w.fault = none ∧ w.schedule = [] ∧ (w.port.context w.port.running).stack = .transmit (.beginBatch f) :: [.feed] ∧
      w.port.tx.inProgress = true) := by decide +kernel
/-- ReplyHandsFrameToTransport: both relations, and a queued frame that is transmitted at each point, or acknowledged:
inside the four calls themselves, and under a poll's handler, before its reply and between two GetConfig chunks. -/
theorem test_witness_reply :
    s4.params.reliability = .relOnce ∧ sOpen.params.reliability = .openRel ∧
      ∀ l ∈ [[Activation.relSent, .feed], [.housekeeping, .tick .decide], [.delivered, .feed], [.poll 0x00, .feed],
          [.dispatch [0x10, 0], .delivered, .feed], [.getConfig 1 2, .awaiting .dispatch, .delivered, .feed],
          [.transmit (.spaceTest ⟨0x02, none, []⟩), .awaiting .reply, .delivered, .feed]],
        let s := (busy l (sOpen.setTransport { sOpen.port.transport with relQueue := [⟨0x3E, [0x20]⟩] })).setSchedule
          [.relTransmit 0 7]
        s.fault = none ∧ s.schedule = .relTransmit 0 7 :: [] ∧ s.params.reliability = .openRel ∧
          s.port.transport.relQueue[0]? = some ⟨0x3E, [0x20]⟩ ∧ (s.port.context s.port.running).stack = l ∧
          (∃ a ∈ l, a.relChance = true) ∧ (∀ a ∈ l, a.holdsBatch = false) ∧
          (s.setSchedule [.relAck 0]).schedule = [.relAck 0] := by decide
/-- ResetAcksThenResets. -/
theorem test_witness_resetAcks :
    let s := busy [.sysReset, .awaiting .dispatch] s4
    s.fault = none ∧ s.schedule = [] ∧
      (s.port.context s.port.running).stack = .sysReset :: [.awaiting .dispatch] := by decide
/-- GetConfigSendsChunks: no blob, one chunk, two chunks, the loop's middle and end. -/
theorem test_witness_getConfig :
    let s := busy [.getConfig 1 2, .awaiting .dispatch] s4
    s4.blob = [] ∧ (s4.setBlob [1]).blob ≠ [] ∧ 251 < (s4.setBlob (List.replicate 252 0)).blob.length ∧
      s.fault = none ∧ s.schedule = [] ∧
      (s.port.context s.port.running).stack = .getConfig 1 2 :: [.awaiting .dispatch] := by decide +kernel
/-- ChunksRebuildTheBlob: the shortest and the longest blob. -/
theorem test_witness_chunks :
    0 < [(0 : Byte)].length ∧ 0 < (List.replicate 2048 (0 : Byte)).length ∧
      (List.replicate 2048 (0 : Byte)).length ≤ 2048 := by
  rw [List.length_replicate]; decide
/-- LoadBinaryWritesChunk and LoadBinaryBoundedAndRepeatable: a short payload, an empty and a full blob, and another
executor. -/
theorem test_witness_loadBinary :
    [(0 : Byte), 0, 1].length < 4 ∧ 4 ≤ [(0 : Byte), 0, 1, 0].length ∧ sExec.params.exec = .other 0 ∧
      s4.params.exec = .blobStore ∧ sExec.blob.length ≤ 2048 ∧ s4.blob.length ≤ 2048 ∧
      (s4.setBlob (List.replicate 2048 0)).blob.length ≤ 2048 := by
  rw [State.setBlob_blob, List.length_replicate]; decide
/-- SetOutputRequestsChannel: both clauses. -/
theorem test_witness_setOutput : [(0x03 : Byte)].length < 2 ∧ [(0x03 : Byte), 0x01] = 0x03 :: 0x01 :: [] := by decide
/-- SaveConfigRoundTrip. -/
theorem test_witness_saveConfigRoundTrip :
    let s := (s4.setBlob [1, 2, 3]).setFlash { s4.flash with eraseScript := [.done], programScript := [true, true, true] }
    0 < s.blob.length ∧ s.blob.length ≤ 2048 ∧ s.flash.ok s.params ∧ s.flash.eraseScript = .done :: [] ∧
      s.flash.programScript = List.replicate (2 + (s.blob.length + 3) / 4) true ++ [] :=
  ⟨by decide, by decide, ⟨by decide, fun _ h => nomatch h⟩, rfl, rfl⟩
/-- SaveConfigFailures: an empty blob, one over the capacity, a failed erase, a failed program call for the first word and
for the last, and an expired erase. -/
theorem test_witness_saveConfigFailures :
    let s := (s4.setBlob [1]).setFlash { s4.flash with eraseScript := [.failed] }
    s4.blob = [] ∧ 2048 < (s4.setBlob (List.replicate 2049 0)).blob.length ∧ 0 < s.blob.length ∧ s.blob.length ≤ 2048 ∧
      s.flash.eraseScript = .failed :: [] := by
  rw [State.setBlob_blob, List.length_replicate]; decide
theorem test_witness_saveConfigProgramFailure :
    let s (l : List Bool) := (s4.setBlob [1]).setFlash { s4.flash with eraseScript := [.done], programScript := l }
    (∀ l, (s l).blob.length = 1 ∧ (s l).flash.ok (s l).params ∧ (s l).flash.eraseScript = .done :: []) ∧
      (s [false]).flash.programScript = List.replicate 0 true ++ false :: [] ∧
      (s [true, true, false]).flash.programScript = List.replicate 2 true ++ false :: [] ∧
      2 < 2 + ((s []).blob.length + 3) / 4 ∧
      ((s4.setBlob [1]).setFlash { s4.flash with eraseScript := [.expired] }).flash.eraseScript = .expired :: [] :=
  ⟨fun _ => ⟨rfl, ⟨rfl, fun _ h => nomatch h⟩, rfl⟩, rfl, rfl, by decide, rfl⟩
/-- FlashFrame. -/
theorem test_witness_flashFrame : s4.flash.ok s4.params ∧ (after (.ping []) s4).isSome = true :=
  ⟨⟨by decide, fun _ h => nomatch h⟩, by decide⟩
/-- ClearConfigErases: an erase that is done, one that fails, one that the watchdog cuts short. -/
theorem test_witness_clearConfig :
    (s4.setFlash { s4.flash with eraseScript := [.done] }).nextErase = .done ∧
      (s4.setFlash { s4.flash with eraseScript := [.failed] }).nextErase ≠ .expired ∧
      (s4.setFlash { s4.flash with eraseScript := [.expired] }).nextErase = .expired := by decide
/-- CorruptRecordIsAbsent: 95 S3, data byte 1 changed from 02 to 03. -/
theorem test_witness_corruptRecord :
    let s := s4.setFlash { s4.flash with cells :=
      [(0x1004, 0x46), (0x1005, 0x4E), (0x1006, 0x4F), (0x1007, 0x43), (0x1008, 0x03), (0x1009, 0x00),
        (0x100A, 0xAD), (0x100B, 0xAD), (0x100C, 0x01), (0x100D, 0x02), (0x100E, 0x03)] }
    s.flash.ok s.params ∧ s.storedBlob = some [1, 2, 3] ∧ 1 < [(1 : Byte), 2, 3].length ∧
      [(1 : Byte), 2, 3][1]? ≠ some 3 := by
  refine ⟨⟨by decide +kernel, by decide +kernel⟩, by decide +kernel, by decide, by decide⟩
/-- WatchdogExpires: a time just short of the period, and the period. -/
theorem test_witness_watchdog :
    (s4.setSchedule [.elapse 999]).fault = none ∧ (s4.setSchedule [.elapse 999]).schedule = .elapse 999 :: [] ∧
      s4.wdt + 999 < s4.params.wdtTimeoutMs ∧ ¬ s4.wdt + 1000 < s4.params.wdtTimeoutMs := by decide
/-- TickSkipsOrStarts: the guard held and free, and the housekeeping of a tick. -/
theorem test_witness_tick :
    let s := busy [.housekeeping, .tick .decide] s4
    (s4.setRxBusy true).port.rxBusy = true ∧ s4.port.rxBusy = false ∧ s.fault = none ∧ s.schedule = [] ∧
      (s.port.context s.port.running).stack = .housekeeping :: [.tick .decide] ∧
      [Activation.tick .decide].all (fun a => !a.inTransport) = true ∧
      (s.port.context s.port.running.other).stack.all (fun a => !a.inTransport) = true ∧
      [Activation.tick .decide].head? = some (.tick .decide) := by decide
/-- TickDecidesEmission: exactly a period later due, a millisecond earlier not (95 TK), and TickEmitsSnapshot. -/
theorem test_witness_tickDecides :
    let st : Stream := { active := true, periodMs := 10, lastEmitTick := 1000, counter := 0 }
    let s := busy [.tick .decide] (({ s4 with clock := 1010 } : State).setStream st)
    let v := busy [.tick (.emit 0 1010)] s4
    s.fault = none ∧ s.schedule = [] ∧ (s.port.context s.port.running).stack = .tick .decide :: [] ∧
      st.periodMs.toNat ≤ ((1010 : U32).toNat + 2 ^ 32 - st.lastEmitTick.toNat) % 2 ^ 32 ∧
      ¬ st.periodMs.toNat ≤ ((1009 : U32).toNat + 2 ^ 32 - st.lastEmitTick.toNat) % 2 ^ 32 ∧
      (v.port.context v.port.running).stack = .tick (.emit 0 1010) :: [] := by decide

end Sys2Proof.Tests
end

/-! ## What a step does with the schedule's first event, and how a reply reaches the transport

The lemmas of this part are rules about the model's operations; the two obligations at its end are assembled from them. -/

namespace Sys2Proof.Machine

/-- The four activations inside which the OPEN layer may transmit (R272). -/
theorem Activation.relChance_iff (a : Activation) :
    a.relChance = true ↔ a = .relSent ∨ a = .housekeeping ∨ a = .delivered ∨ ∃ b, a = .poll b := by
  cases a <;> simp [relChance, inTransport]

namespace State

variable {s : State}

/-- Under another executing context the stack is that context's (R39). -/
@[simp] theorem setCtx_stack (c : Ctx) : (s.setCtx c).stack = (s.port.context c).stack := rfl

/-! ### The next move -/

/-- A pending `dispatch` on the running context is fetched and then waits for its handler (R220). -/
theorem runMove_of_dispatch {bytes : List Byte} {l : List Activation}
    (hstack : (s.port.context s.port.running).stack = .dispatch bytes :: l) :
    s.runMove = .frame bytes ((s.setCtx s.port.running).setStack (.awaiting .dispatch :: l)) := by
  have htop : (s.enter s.port.running).stack = .dispatch bytes :: l := by
    rw [enter_eq, setCtx_stack, hstack]
  rcases runMove_cases s with ⟨b, l', hb, hmove⟩ | ⟨hnone, -⟩
  · obtain ⟨⟨rfl⟩, rfl⟩ := List.cons_eq_cons.1 (htop.symm.trans hb)
    rw [hmove, replaceTop_eq, htop, enter_eq, List.tail_cons]
  · exact absurd htop (hnone bytes l)

/-- `advance` lets the running context move. -/
theorem nextMove_of_advance {rest : List Event} (hsched : s.schedule = .advance :: rest) :
    s.nextMove = (s.setSchedule rest).runMove := by
  simp only [nextMove, hsched]

/-- An event that neither starts something nor lets a context move is the environment's own act (R13). -/
theorem nextMove_of_act {e : Event} {rest : List Event} (hsched : s.schedule = e :: rest)
    (hstarts : e.starts = false) (hadvance : e ≠ .advance) :
    s.nextMove = .env ((s.setSchedule rest).act e) := by
  cases e with
  | advance => exact absurd rfl hadvance
  | call | frame | rxEntry => cases hstarts
  | _ => simp only [nextMove, hsched]

/-- The fetch reads the instruction that the bytes decode to; what stands behind it is left over. -/
theorem fetch_of_decode {bytes tail : List Byte} {i : Instr}
    (hdecode : decode s.params.idReset bytes = .ok (i, tail)) : s.fetch bytes = .ok i := by
  simp only [fetch, hdecode]

/-! ### The reply and the OPEN relation -/

/-- `reply` of a REL frame under the OPEN relation: the frame is queued (R272). -/
theorem sendReply_open (id : FrameId) (p : List Byte) (hopen : s.params.reliability = .openRel) :
    s.sendReply id p .rel =
      (s.setTransport { s.port.transport with relQueue := s.port.transport.relQueue ++ [⟨id, p⟩] }).setStack
        (.relSent :: .awaiting .reply :: s.stack) := by
  unfold sendReply
  rw [transportSend_open (s := s.push (.awaiting .reply)) id p hopen]
  simp only [push_eq, setStack_transport, setStack_setTransport, setStack_stack, setStack_setStack]

/-- The OPEN layer may transmit inside one of those four, at whatever depth, with no frame partly in the batch (R272). -/
theorem relMayTransmit_iff :
    s.relMayTransmit = true ↔
      (∃ a ∈ s.stack, a = .relSent ∨ a = .housekeeping ∨ a = .delivered ∨ ∃ b, a = .poll b) ∧
      ∀ a ∈ s.stack, a.holdsBatch = false := by
  simp only [relMayTransmit, Bool.and_eq_true, List.any_eq_true, List.all_eq_true, Bool.not_eq_true',
    Activation.relChance_iff]

/-- Where it may, the OPEN layer starts the transmit sequence of the queued frame it chose, in the reliable layout. -/
theorem relTransmit_of_mayTransmit {k : Nat} {f : Frame} (seq : Byte) (hopen : s.params.reliability = .openRel)
    (hmay : s.relMayTransmit = true) (hqueue : s.port.transport.relQueue[k]? = some f) :
    s.relTransmit k seq = s.setStack (.transmit (.spaceTest ⟨f.id, some seq, f.payload⟩) :: s.stack) := by
  simp only [relTransmit, hopen, hmay, hqueue, push_eq]

end State

/-! ### The step -/

/-- A frame that is fetched is run as the instruction it decodes to. -/
theorem step_of_nextMove_frame {s t : State} {bytes : List Byte} {i : Instr} (hfault : s.fault = none)
    (hmove : s.nextMove = .frame bytes t) (hfetch : t.fetch bytes = .ok i) : step s = exec i t := by
  simp only [step, hfault, hmove, hfetch]

/-- The environment's act completes the step. -/
theorem step_of_act {s : State} {e : Event} {rest : List Event} (hfault : s.fault = none)
    (hsched : s.schedule = e :: rest) (hstarts : e.starts = false) (hadvance : e ≠ .advance) :
    step s = .next ((s.setSchedule rest).act e) := by
  simp only [step, hfault, State.nextMove_of_act hsched hstarts hadvance]

/-- The meaning of `reply` is the reply (R221). -/
theorem exec_reply (id : FrameId) (p : List Byte) (mode : SendMode) (s : State) :
    exec (.reply id p mode) s = .next (s.sendReply id p mode) := rfl

/-- Settles O5: the pending frame is the running context's move, and its bytes decode under the state's parameters, which
nothing on the way changes. -/
theorem stepRunsDeliveredFrame : Obligations.StepRunsDeliveredFrame := by
  intro s bytes tail l i rest hfault hsched hstack hdecode
  have hmove : s.nextMove = .frame bytes
      (((s.setSchedule rest).setCtx s.port.running).setStack (.awaiting .dispatch :: l)) :=
    (State.nextMove_of_advance hsched).trans (State.runMove_of_dispatch hstack)
  exact step_of_nextMove_frame hfault hmove (State.fetch_of_decode hdecode)

/-- The OPEN relation's transmission event pushes the transmit sequence on the running context's stack (R272, R275). -/
theorem step_relTransmit {s : State} {k : Nat} {seq : Byte} {f : Frame} {rest : List Event} (hfault : s.fault = none)
    (hsched : s.schedule = .relTransmit k seq :: rest) (hopen : s.params.reliability = .openRel)
    (hqueue : s.port.transport.relQueue[k]? = some f)
    (hmay : (s.setCtx s.port.running).relMayTransmit = true) :
    step s = .next (((s.setSchedule rest).setCtx s.port.running).setStack
      (.transmit (.spaceTest ⟨f.id, some seq, f.payload⟩) :: (s.port.context s.port.running).stack)) := by
  rw [step_of_act hfault hsched rfl (by simp)]
  exact congrArg Host.Outcome.next
    (State.relTransmit_of_mayTransmit (s := (s.setSchedule rest).setCtx s.port.running) seq hopen hmay hqueue)

/-- Settles O37: the reply by its mode and the relation, the transmission where the layer may transmit, the
acknowledgement as an act of the environment. -/
theorem replyHandsFrameToTransport : Obligations.ReplyHandsFrameToTransport := by
  refine ⟨fun s id p mode => ⟨fun honce => ?_, ?_⟩, ?_, fun s k rest hfault hsched => ?_⟩
  · rw [exec_reply, State.sendReply_once id p mode honce]
  · rintro rfl hopen
    rw [exec_reply, State.sendReply_open id p hopen]
  · rintro s k seq f l rest hfault hsched hopen hqueue rfl hinside hfree
    exact step_relTransmit hfault hsched hopen hqueue (State.relMayTransmit_iff.2 ⟨hinside, hfree⟩)
  · exact step_of_act hfault hsched rfl (by simp)

end Sys2Proof.Machine

/-! ## What an operation leaves within the bounds, and what it leaves to the arbiter

Two relations between a state and a later one, each a preorder with one rule per state operation: `KeepsBounds` (the
bounds, the parameters, the other ports) and `SameControl` (besides those, all that sequences the block: batch, guard,
activation stacks, fault, schedule). -/

namespace Sys2Proof.Machine

/-- `t` is within the bounds if `s` is, under the same parameters and with the same other ports. -/
structure State.KeepsBounds (s t : State) : Prop where
  inv : s.Inv → t.Inv
  params : t.params = s.params
  others : t.others = s.others

/-- `t` differs from `s` in nothing that decides which context does what next, and keeps the bounds. -/
structure State.SameControl (s t : State) : Prop extends State.KeepsBounds s t where
  fault : t.fault = s.fault
  schedule : t.schedule = s.schedule
  ctx : t.ctx = s.ctx
  tx : t.port.tx = s.port.tx
  rxBusy : t.port.rxBusy = s.port.rxBusy
  stackM : t.port.ctxM.stack = s.port.ctxM.stack
  stackI : t.port.ctxI.stack = s.port.ctxI.stack
  receiver : s.port.transport.rx.ok → t.port.transport.rx.ok

namespace State

variable {s t u : State}

/-! ### Keeping the bounds -/

@[refl] theorem KeepsBounds.refl (s : State) : s.KeepsBounds s := ⟨id, rfl, rfl⟩

@[trans] theorem KeepsBounds.trans (hst : s.KeepsBounds t) (htu : t.KeepsBounds u) : s.KeepsBounds u :=
  ⟨fun h => htu.inv (hst.inv h), htu.params.trans hst.params, htu.others.trans hst.others⟩

theorem keepsBounds_setTx {x : TxBatch} (hx : s.port.tx.ok s.params.txCap → x.ok s.params.txCap) :
    s.KeepsBounds (s.setTx x) :=
  ⟨fun ⟨⟨htx, hport⟩, hrest⟩ => ⟨⟨hx htx, hport⟩, hrest⟩, rfl, rfl⟩

theorem keepsBounds_setRx {r : Ring} (hr : s.port.rx.ok s.params.rxCap → r.ok s.params.rxCap) :
    s.KeepsBounds (s.setRx r) :=
  ⟨fun ⟨⟨htx, hrx, hport⟩, hrest⟩ => ⟨⟨htx, hr hrx, hport⟩, hrest⟩, rfl, rfl⟩

theorem keepsBounds_setStream {x : Stream} (hx : s.port.stream.ok → x.ok) : s.KeepsBounds (s.setStream x) :=
  ⟨fun ⟨⟨htx, hrx, hstream, hport⟩, hrest⟩ => ⟨⟨htx, hrx, hx hstream, hport⟩, hrest⟩, rfl, rfl⟩

theorem keepsBounds_setTransport {x : Transport} (hx : s.port.transport.rx.ok → x.rx.ok) :
    s.KeepsBounds (s.setTransport x) :=
  ⟨fun ⟨⟨htx, hrx, hstream, hreceiver⟩, hrest⟩ => ⟨⟨htx, hrx, hstream, hx hreceiver⟩, hrest⟩, rfl, rfl⟩

theorem keepsBounds_setExec {e : Config.ExecState} (he : s.blob.length ≤ Config.blobCap → e.blob.length ≤ Config.blobCap) :
    s.KeepsBounds (s.setExec e) :=
  ⟨fun ⟨hport, hothers, hports, hblob, hflash⟩ => ⟨hport, hothers, hports, he hblob, hflash⟩, rfl, rfl⟩

theorem keepsBounds_setBlob {b : List Byte} (hb : b.length ≤ Config.blobCap) : s.KeepsBounds (s.setBlob b) :=
  ⟨fun ⟨hport, hothers, hports, _, hflash⟩ => ⟨hport, hothers, hports, hb, hflash⟩, rfl, rfl⟩

theorem keepsBounds_setFlash {f : Flash} (hf : s.flash.ok s.params → f.ok s.params) : s.KeepsBounds (s.setFlash f) :=
  ⟨fun ⟨hport, hothers, hports, hblob, hflash⟩ => ⟨hport, hothers, hports, hblob, hf hflash⟩, rfl, rfl⟩

/-! No bound speaks of the stacks, the last result, the guard, the UART, or of which context executes. -/

theorem keepsBounds_setStack (l : List Activation) : s.KeepsBounds (s.setStack l) := ⟨id, rfl, rfl⟩
theorem keepsBounds_setRet (r : Returned) : s.KeepsBounds (s.setRet r) := ⟨id, rfl, rfl⟩
theorem keepsBounds_setRxBusy (b : Bool) : s.KeepsBounds (s.setRxBusy b) := ⟨id, rfl, rfl⟩
theorem keepsBounds_setUart (x : Uart) : s.KeepsBounds (s.setUart x) := ⟨id, rfl, rfl⟩
theorem keepsBounds_setFresh (n : Nat) : s.KeepsBounds (s.setFresh n) := ⟨id, rfl, rfl⟩
theorem keepsBounds_setCtx (c : Ctx) : s.KeepsBounds (s.setCtx c) := ⟨id, rfl, rfl⟩
theorem keepsBounds_setSchedule (l : List Event) : s.KeepsBounds (s.setSchedule l) := ⟨id, rfl, rfl⟩

theorem keepsBounds_raise (k : Fault) : s.KeepsBounds (s.raise k) := by
  unfold raise
  split
  · exact ⟨id, rfl, rfl⟩
  · exact .refl s

theorem keepsBounds_leave : s.KeepsBounds s.leave := keepsBounds_setStack _
theorem keepsBounds_push (a : Activation) : s.KeepsBounds (s.push a) := keepsBounds_setStack _
theorem keepsBounds_replaceTop (a : Activation) : s.KeepsBounds (s.replaceTop a) := keepsBounds_setStack _

/-- A reply moves the stack and the queue: no bound speaks of either. -/
theorem keepsBounds_sendReply (id : FrameId) (p : List Byte) (mode : SendMode) : s.KeepsBounds (s.sendReply id p mode) := by
  obtain ⟨l, q, e, -⟩ := sendReply_frame (s := s) id p mode
  exact e ▸ (keepsBounds_setTransport (x := { s.port.transport with relQueue := q }) (·)).trans (keepsBounds_setStack l)

/-! ### The same control -/

@[refl] theorem SameControl.refl (s : State) : s.SameControl s :=
  ⟨.refl s, rfl, rfl, rfl, rfl, rfl, rfl, rfl, (·)⟩

@[trans] theorem SameControl.trans (hst : s.SameControl t) (htu : t.SameControl u) : s.SameControl u :=
  ⟨hst.toKeepsBounds.trans htu.toKeepsBounds, htu.fault.trans hst.fault, htu.schedule.trans hst.schedule,
    htu.ctx.trans hst.ctx, htu.tx.trans hst.tx, htu.rxBusy.trans hst.rxBusy, htu.stackM.trans hst.stackM,
    htu.stackI.trans hst.stackI, fun h => htu.receiver (hst.receiver h)⟩

/-- Both contexts' stacks are the same. -/
theorem SameControl.contextStack (h : s.SameControl t) (c : Ctx) :
    (t.port.context c).stack = (s.port.context c).stack := by
  cases c
  · exact h.stackM
  · exact h.stackI

/-- The executing context's stack is the same. -/
theorem SameControl.stack (h : s.SameControl t) : t.stack = s.stack := by
  unfold State.stack
  rw [h.ctx, h.contextStack]

/-- An operation off the selected port that keeps the bounds has the same control. -/
theorem KeepsBounds.sameControl (h : s.KeepsBounds t) (hport : t.port = s.port) (hfault : t.fault = s.fault)
    (hschedule : t.schedule = s.schedule) (hctx : t.ctx = s.ctx) : s.SameControl t :=
  ⟨h, hfault, hschedule, hctx, by rw [hport], by rw [hport], by rw [hport], by rw [hport], by rw [hport]; exact (·)⟩

theorem sameControl_setRet (r : Returned) : s.SameControl (s.setRet r) := by
  refine ⟨keepsBounds_setRet r, rfl, rfl, rfl, rfl, rfl, ?_, ?_, (·)⟩ <;>
    unfold setRet Port.setContext Port.context <;> cases s.ctx <;> rfl

theorem sameControl_setRx {r : Ring} (hr : s.port.rx.ok s.params.rxCap → r.ok s.params.rxCap) :
    s.SameControl (s.setRx r) :=
  ⟨keepsBounds_setRx hr, rfl, rfl, rfl, rfl, rfl, rfl, rfl, (·)⟩

theorem sameControl_setUart (x : Uart) : s.SameControl (s.setUart x) :=
  ⟨keepsBounds_setUart x, rfl, rfl, rfl, rfl, rfl, rfl, rfl, (·)⟩

theorem sameControl_setStream {x : Stream} (hx : s.port.stream.ok → x.ok) : s.SameControl (s.setStream x) :=
  ⟨keepsBounds_setStream hx, rfl, rfl, rfl, rfl, rfl, rfl, rfl, (·)⟩

theorem sameControl_setTransport {x : Transport} (hx : s.port.transport.rx.ok → x.rx.ok) :
    s.SameControl (s.setTransport x) :=
  ⟨keepsBounds_setTransport hx, rfl, rfl, rfl, rfl, rfl, rfl, rfl, hx⟩

theorem sameControl_setBlob {b : List Byte} (hb : b.length ≤ Config.blobCap) : s.SameControl (s.setBlob b) :=
  (keepsBounds_setBlob hb).sameControl rfl rfl rfl rfl

theorem sameControl_setExec {e : Config.ExecState}
    (he : s.blob.length ≤ Config.blobCap → e.blob.length ≤ Config.blobCap) : s.SameControl (s.setExec e) :=
  (keepsBounds_setExec he).sameControl rfl rfl rfl rfl

theorem sameControl_setFlash {f : Flash} (hf : s.flash.ok s.params → f.ok s.params) : s.SameControl (s.setFlash f) :=
  (keepsBounds_setFlash hf).sameControl rfl rfl rfl rfl

theorem sameControl_setFresh (n : Nat) : s.SameControl (s.setFresh n) :=
  (keepsBounds_setFresh n).sameControl rfl rfl rfl rfl

theorem sameControl_setWdt (n : Nat) : s.SameControl (s.setWdt n) :=
  KeepsBounds.sameControl ⟨id, rfl, rfl⟩ rfl rfl rfl rfl

theorem sameControl_setDriver (d : Driver) : s.SameControl (s.setDriver d) :=
  KeepsBounds.sameControl ⟨id, rfl, rfl⟩ rfl rfl rfl rfl

/-! ### The shared operations -/

theorem sameControl_ringPut (b : Byte) : s.SameControl (s.ringPut b) := sameControl_setRx (ring_put_ok b)

/-- A wait iteration's receive poll touches the ring and the UART alone (R176). -/
theorem sameControl_rxCapture : s.SameControl s.rxCapture := by
  rcases rxCapture_cases (s := s) with ⟨-, e⟩ | ⟨-, e⟩ <;> rw [e]
  exact (sameControl_ringPut s.port.uart.rdr).trans (sameControl_setUart _)

theorem sameControl_uartWrite (b : Byte) : s.SameControl (s.uartWrite b) := sameControl_setUart _

theorem sameControl_acceptDelivery (d : Delivery) : s.SameControl (s.acceptDelivery d).1 := by
  obtain ⟨q, n, e⟩ := acceptDelivery_frame (s := s) d
  rw [e]
  exact (sameControl_setTransport (x := { s.port.transport with relRxSeq := q }) (·)).trans (sameControl_setFresh n)

/-! ### The flash -/

/-- Cells that a write, a scramble or an erase of a range inside the sector leaves are canonical and inside it (R79). -/
theorem flash_ok_of_cells {f : Flash} {p : Config.Params} {cells : List Host.Cell} (h : f.ok p)
    (hwf : Memory.wf p.flashErased cells = true)
    (hmem : ∀ c ∈ cells, c ∈ f.cells ∨ p.sectorBase ≤ c.1 ∧ c.1 < p.sectorBase + p.sectorSize)
    (es : List Config.EraseOutcome) (ps : List Bool) :
    ({ cells := cells, eraseScript := es, programScript := ps } : Flash).ok p :=
  ⟨hwf, fun c hc => (hmem c hc).elim (h.2 c) id⟩

/-- An erase keeps the flash in canonical form inside its sector, whatever its outcome (R330, R338). -/
theorem sameControl_eraseSector : s.SameControl s.eraseSector.1 := by
  refine (sameControl_setFlash fun h => ?_).trans (sameControl_setFresh _)
  cases s.nextErase
  case done => exact flash_ok_of_cells h (Memory.wf_erase _ _ h.1) (fun c hc => .inl (List.mem_filter.1 hc).1) _ _
  all_goals exact flash_ok_of_cells h (Memory.wf_scramble _ _ _ h.1) (fun c hc => Memory.mem_scramble hc) _ _

/-- A program call inside the sector keeps the flash in canonical form inside it (R330). -/
theorem sameControl_programWord {a : Nat} {w : List Byte} (hlow : s.params.sectorBase ≤ a)
    (hhigh : a + w.length ≤ s.params.sectorBase + s.params.sectorSize) : s.SameControl (s.programWord a w).1 := by
  refine (sameControl_setFlash fun h => ?_).trans (sameControl_setFresh _)
  have hrange : ∀ c : Host.Cell, a ≤ c.1 ∧ c.1 < a + w.length →
      s.params.sectorBase ≤ c.1 ∧ c.1 < s.params.sectorBase + s.params.sectorSize := fun c hc => by omega
  split
  · exact flash_ok_of_cells h (Memory.wf_writeBytes _ _ h.1)
      (fun c hc => (Memory.mem_writeBytes hc).imp_right (hrange c)) _ _
  · exact flash_ok_of_cells h (Memory.wf_scramble _ _ _ h.1)
      (fun c hc => (Memory.mem_scramble hc).imp_right (hrange c)) _ _

/-- The program loop inside the sector, up to its end or to the first word that fails (R333). -/
theorem sameControl_programWords {a : Nat} {l : List Byte} {s : State} (hlow : s.params.sectorBase ≤ a)
    (hhigh : a + l.length ≤ s.params.sectorBase + s.params.sectorSize) :
    s.SameControl (State.programWords a l s).1 := by
  induction a, l, s using State.programWords.induct with
  | case1 a b0 b1 b2 b3 rest s t hword ih =>
    have hst : s.SameControl t := by
      have h := sameControl_programWord (s := s) (a := a) (w := [b0, b1, b2, b3]) hlow
        (by simp only [List.length_cons, List.length_nil] at hhigh ⊢; omega)
      rwa [hword] at h
    rw [State.programWords, hword]
    refine hst.trans (ih ?_ ?_) <;> rw [hst.params]
    · omega
    · simp only [List.length_cons] at hhigh; omega
  | case2 a b0 b1 b2 b3 rest s t hword =>
    have h := sameControl_programWord (s := s) (a := a) (w := [b0, b1, b2, b3]) hlow
      (by simp only [List.length_cons, List.length_nil] at hhigh ⊢; omega)
    rw [State.programWords, hword]
    rwa [hword] at h
  | case3 l a s hl =>
    rw [State.programWords]
    exact hl

/-- What a guarded erase can do: answer, or reset the system; before that only the flash and the watchdog move. -/
theorem guardedErase_sameControl :
    (∃ ok, s.guardedErase = ((s.wdtRefresh.eraseSector).1.wdtRefresh, some ok)) ∨
    ∃ v, s.SameControl v ∧ s.guardedErase = (systemReset v, none) := by
  rcases guardedErase_cases (s := s) with ⟨ok, e, -⟩ | ⟨-, e⟩
  · exact .inl ⟨ok, e⟩
  · exact .inr ⟨_, (sameControl_setWdt 0).trans sameControl_eraseSector, e⟩

theorem sameControl_refreshedErase : s.SameControl (s.wdtRefresh.eraseSector).1.wdtRefresh :=
  ((sameControl_setWdt 0).trans sameControl_eraseSector).trans (sameControl_setWdt 0)

/-- What `Store.save` can do: answer, or reset the system; before that only the flash and the watchdog move. -/
theorem storeSave_sameControl :
    (∃ v ok, s.SameControl v ∧ s.storeSave = (v, some ok)) ∨ ∃ v, s.SameControl v ∧ s.storeSave = (systemReset v, none) := by
  unfold storeSave
  split
  · exact .inl ⟨s, false, .refl s, rfl⟩
  · rename_i hblob
    rcases guardedErase_sameControl (s := s) with ⟨ok, e⟩ | ⟨v, hv, e⟩
    · rw [e]
      cases ok
      · exact .inl ⟨_, false, sameControl_refreshedErase, rfl⟩
      · refine .inl ⟨_, _, sameControl_refreshedErase.trans
          (sameControl_programWords (l := recordBytes s.params.flashPad s.blob) s.params.record_low ?_), rfl⟩
        show s.params.recordAddr + (recordBytes s.params.flashPad s.blob).length ≤
          s.params.sectorBase + s.params.sectorSize
        have hfit := s.params.record_high
        rw [length_recordBytes]
        simp only [Config.recordMax, Config.blobCap] at hfit hblob
        omega
    · exact .inr ⟨v, hv, by rw [e]⟩

/-- What `Store.clear` can do: answer, or reset the system; before that only blob, flash and watchdog move. -/
theorem storeClear_sameControl :
    (∃ v ok, s.SameControl v ∧ s.storeClear = (v, some ok)) ∨
    ∃ v, s.SameControl v ∧ s.storeClear = (systemReset v, none) := by
  have hclear : s.SameControl (s.setBlob []) := sameControl_setBlob (Nat.zero_le _)
  unfold storeClear
  rcases guardedErase_sameControl (s := s.setBlob []) with ⟨ok, e⟩ | ⟨v, hv, e⟩
  · exact .inl ⟨_, ok, hclear.trans sameControl_refreshedErase, e⟩
  · exact .inr ⟨v, hclear.trans hv, e⟩

/-! ### LoadBinary, the stream's rate, the output driver -/

/-- The default LoadBinary keeps the blob within its buffer: what lies beyond the capacity is dropped (R341). -/
theorem length_loadChunk_le (n : Nat) (c : Chunk) {b : List Byte} (hb : b.length ≤ Config.blobCap) :
    (loadChunk n c b).length ≤ Config.blobCap := by
  have hstart : (if c.chunkIdx = 0 then [] else b).length ≤ Config.blobCap := by
    split
    · exact Nat.zero_le _
    · exact hb
  have hbase := Nat.min_le_right (Config.chunkDataMax * c.chunkIdx.toNat) Config.blobCap
  simp only [loadChunk, chunkBase, List.length_append, List.length_take, List.length_drop, List.length_map,
    List.length_range'] at *
  omega

/-- LoadBinary, whichever the executor, changes the blob, within its buffer, and the executor alone (R340 (b)). -/
theorem sameControl_execLoad (p : List Byte) (c : Chunk) : s.SameControl (s.execLoad p c).1 := by
  unfold execLoad
  split
  · exact (sameControl_setExec (e := ⟨loadChunk s.fresh c s.blob, s.execStore, s.channels⟩)
      (length_loadChunk_le s.fresh c)).trans (sameControl_setFresh _)
  · exact sameControl_setExec (length_loadOther _ p s.execState)

/-- The rate StartStream uses is a legal one: the default for an absent or zero operand, the maximum above it (R230). -/
theorem rateUsed_range (r : Option U16) : 1 ≤ (rateUsed r).toNat ∧ (rateUsed r).toNat ≤ 100 := by
  by_cases hzero : r.getD 0 = 0
  · have hdefault : rateUsed r = 10 := by simp only [rateUsed, hzero]; rfl
    rw [hdefault]
    decide
  · have hpos : 0 < (r.getD 0).toNat := Nat.pos_of_ne_zero fun h => hzero (BitVec.eq_of_toNat_eq h)
    by_cases hmax : Config.rateMax < r.getD 0
    · simp only [rateUsed, if_neg hzero, if_pos hmax]
      decide
    · simp only [rateUsed, if_neg hzero, if_neg hmax]
      exact ⟨hpos, Nat.le_of_not_lt fun h => hmax (BitVec.lt_def.2 h)⟩

/-- The period of a legal rate is a legal period (R41, R230). -/
theorem periodOf_ok {r : U16} (hr : 1 ≤ r.toNat ∧ r.toNat ≤ 100) :
    10 ≤ (periodOf r).toNat ∧ (periodOf r).toNat ≤ 1000 := by
  have hdiv : (periodOf r).toNat = 1000 / r.toNat := by
    simp only [periodOf, BitVec.toNat_udiv, BitVec.truncate_eq_setWidth, BitVec.toNat_setWidth]
    rw [Nat.mod_eq_of_lt (by omega)]
    rfl
  rw [hdiv]
  exact ⟨(Nat.le_div_iff_mul_le (by omega)).2 (by omega), Nat.div_le_self _ _⟩

theorem sameControl_setOutput (ch st : Byte) : s.SameControl (s.setOutput ch st) :=
  (sameControl_setDriver _).trans (sameControl_setFresh _)

end State

end Sys2Proof.Machine

/-! ## What a handler can do -/

namespace Sys2Proof.Machine

/-- What the handler of a frame leaves (R220): its own effect, which is not on the control, and then a reply; a reply over a
Reset or over the rest of a chunk loop still to run (R224, R225); or a machine whose watchdog expired in an erase (R338). -/
inductive State.Handled (s : State) : State → Prop
  | reply {v : State} (id : FrameId) (p : List Byte) (mode : SendMode) :
      s.SameControl v → Handled s (v.sendReply id p mode)
  | replyOver {a : Activation} (id : FrameId) (p : List Byte) (mode : SendMode) :
      (a = .sysReset ∨ ∃ k total, a = .getConfig k total) → Handled s ((s.push a).sendReply id p mode)
  | reset {v : State} : s.SameControl v → Handled s (systemReset v)

namespace State

variable {s : State}

theorem handled_reply (id : FrameId) (p : List Byte) (mode : SendMode) : s.Handled (s.sendReply id p mode) :=
  .reply id p mode (.refl s)

theorem handled_hPing : s.Handled s.hPing := handled_reply ..

theorem handled_hReset : s.Handled s.hReset := .replyOver _ _ _ (.inl rfl)

theorem handled_sendChunks (k total : Nat) : s.Handled (s.sendChunks k total) := by
  unfold sendChunks
  simp only
  split
  · exact .replyOver _ _ _ (.inr ⟨_, _, rfl⟩)
  · exact handled_reply ..

theorem handled_hGetConfig : s.Handled s.hGetConfig := by
  unfold hGetConfig
  split
  · exact handled_reply ..
  · exact handled_sendChunks ..

theorem handled_hSaveConfig : s.Handled s.hSaveConfig := by
  unfold hSaveConfig
  rcases storeSave_sameControl (s := s) with ⟨v, ok, hv, e⟩ | ⟨v, hv, e⟩ <;> rw [e]
  · exact .reply _ _ _ hv
  · exact .reset hv

theorem handled_hClearConfig : s.Handled s.hClearConfig := by
  unfold hClearConfig
  rcases storeClear_sameControl (s := s) with ⟨v, ok, hv, e⟩ | ⟨v, hv, e⟩ <;> rw [e]
  · exact .reply _ _ _ hv
  · exact .reset hv

theorem handled_hLoadBinary (p : List Byte) : s.Handled (s.hLoadBinary p) := by
  unfold hLoadBinary
  split
  · exact handled_reply ..
  · exact .reply _ _ _ (sameControl_execLoad p _)

theorem handled_hStartStream (p : List Byte) : s.Handled (s.hStartStream p) :=
  .reply _ _ _ (sameControl_setStream fun _ => periodOf_ok (rateUsed_range _))

theorem handled_hStopStream : s.Handled s.hStopStream := .reply _ _ _ (sameControl_setStream (·))

theorem handled_hSetOutput (p : List Byte) : s.Handled (s.hSetOutput p) := by
  unfold hSetOutput
  split
  · exact handled_reply ..
  · exact .reply _ _ _ (sameControl_setOutput ..)

theorem handled_hGetCapabilities : s.Handled s.hGetCapabilities := handled_reply ..

theorem handled_unknownReply (id : FrameId) : s.Handled (s.unknownReply id) := handled_reply ..

/-- Whatever the id, `dispatch` runs one of the handlers (R220). -/
theorem handled_handle (id : FrameId) (p : List Byte) : s.Handled (s.handle id p) := by
  unfold handle
  split; · exact handled_hPing
  split; · exact handled_hReset
  split; · exact handled_hGetConfig
  split; · exact handled_hLoadBinary p
  split; · exact handled_hSaveConfig
  split; · exact handled_hClearConfig
  split; · exact handled_hStartStream p
  split; · exact handled_hStopStream
  split; · exact handled_hSetOutput p
  split; · exact handled_hGetCapabilities
  exact handled_unknownReply id

end State

/-- The meaning of a frame instruction completes, with what a handler can do (R101 to R104). -/
theorem exec_frame_handled {i : Instr} {r : FrameId} {f : FrameId × List Byte} (hframe : i.frame? r = some f) (s : State) :
    ∃ t, exec i s = .next t ∧ s.Handled t := by
  cases i with
  | ping => exact ⟨_, rfl, State.handled_hPing⟩
  | reset => exact ⟨_, rfl, State.handled_hReset⟩
  | getConfig => exact ⟨_, rfl, State.handled_hGetConfig⟩
  | saveConfig => exact ⟨_, rfl, State.handled_hSaveConfig⟩
  | clearConfig => exact ⟨_, rfl, State.handled_hClearConfig⟩
  | loadBinary p => exact ⟨_, rfl, State.handled_hLoadBinary p⟩
  | startStream p => exact ⟨_, rfl, State.handled_hStartStream p⟩
  | stopStream => exact ⟨_, rfl, State.handled_hStopStream⟩
  | setOutput p => exact ⟨_, rfl, State.handled_hSetOutput p⟩
  | getCapabilities => exact ⟨_, rfl, State.handled_hGetCapabilities⟩
  | loadConfigReserved | configAckReserved | unrecognized | pong | configData | flashAck | clearConfigAck | binaryAck
  | data | outputAck | capabilities | ack | nack => exact ⟨_, rfl, State.handled_unknownReply _⟩
  | crc16Step | crc16 | crc32Step | crc32 | ringPut | ringGet | beginSend | appendByte | endSend | spaceRemaining | nowMs
  | feed | drainAndRelease | tick | dispatch | reply => cases hframe

/-! ## Every step keeps the bounds -/

namespace State

variable {s t u : State}

/-! ### The system reset -/

@[simp] theorem systemReset_params : (systemReset s).params = s.params := by rw [systemReset_eq]; rfl
@[simp] theorem systemReset_fault : (systemReset s).fault = s.fault := by rw [systemReset_eq]; rfl
@[simp] theorem systemReset_schedule : (systemReset s).schedule = s.schedule := by rw [systemReset_eq]; rfl
@[simp] theorem systemReset_port :
    (systemReset s).port = Port.reset s.params (s.fresh + 1) 0 s.port.uart.sent := by rw [systemReset_eq]; rfl
@[simp] theorem systemReset_others :
    (systemReset s).others = Port.resetAll s.params (s.fresh + 1) 1 s.others := by rw [systemReset_eq]; rfl
@[simp] theorem systemReset_flash : (systemReset s).flash = s.flash := by rw [systemReset_eq]; rfl

/-- Boot leaves a blob within its buffer (R334, R443). -/
theorem systemReset_blob_le : (systemReset s).blob.length ≤ Config.blobCap := by
  rw [systemReset_eq, setBlob_blob]
  cases h : (s.resetPorts.setWdt 0).storedBlob with
  | none => exact Nat.zero_le _
  | some l => exact (storedBlob_length h).2

/-- A port at its reset values is within the bounds (R441). -/
theorem reset_port_ok (p : Config.Params) (n k : Nat) (sent : List Byte) : (Port.reset p n k sent).ok p := by
  have hcap := p.rxCap_two
  refine ⟨⟨Nat.zero_le _, fun _ => ⟨rfl, rfl, rfl⟩⟩, ⟨?_, ?_, ?_⟩, ⟨?_, ?_⟩, minCodec.init_ok⟩
  · simp [Port.reset, Ring.reset]
  · show 0 < p.rxCap; omega
  · show 0 < p.rxCap; omega
  · show 10 ≤ (100 : U32).toNat; decide
  · show (100 : U32).toNat ≤ 1000; decide

/-- A system reset keeps the machine within the bounds. -/
theorem systemReset_inv (h : s.Inv) : (systemReset s).Inv := by
  obtain ⟨-, -, hports, -, hflash⟩ := h
  refine ⟨?_, fun q hq => ?_, ?_, systemReset_blob_le, ?_⟩
  · rw [systemReset_port, systemReset_params]
    exact reset_port_ok ..
  · rw [systemReset_others] at hq
    obtain ⟨k, sent, rfl⟩ := mem_resetAll hq
    rw [systemReset_params]
    exact reset_port_ok ..
  · rw [systemReset_others, length_resetAll, systemReset_params, hports]
  · rw [systemReset_flash, systemReset_params]
    exact hflash

/-- Either the bounds, the parameters and the other ports are kept, or a system reset followed after that. -/
def KeepsOrResets (s t : State) : Prop := s.KeepsBounds t ∨ ∃ u, s.KeepsBounds u ∧ t = systemReset u

theorem KeepsOrResets.refl (s : State) : s.KeepsOrResets s := .inl (.refl s)

theorem KeepsBounds.thenKeepsOrResets (hst : s.KeepsBounds t) (htu : t.KeepsOrResets u) : s.KeepsOrResets u :=
  htu.imp hst.trans fun ⟨v, hv, e⟩ => ⟨v, hst.trans hv, e⟩

theorem keepsOrResets_systemReset (s : State) : s.KeepsOrResets (systemReset s) := .inr ⟨s, .refl s, rfl⟩

theorem KeepsOrResets.inv (h : s.KeepsOrResets t) (hs : s.Inv) : t.Inv := by
  rcases h with h | ⟨u, h, rfl⟩
  · exact h.inv hs
  · exact systemReset_inv (h.inv hs)

theorem KeepsOrResets.params (h : s.KeepsOrResets t) : t.params = s.params := by
  rcases h with h | ⟨u, h, rfl⟩
  · exact h.params
  · exact systemReset_params.trans h.params

theorem KeepsOrResets.others (h : s.KeepsOrResets t) :
    t.others = s.others ∨ ∃ u : State, u.others = s.others ∧ u.params = s.params ∧ t = systemReset u :=
  h.imp (·.others) fun ⟨u, hu, e⟩ => ⟨u, hu.others, hu.params, e⟩

theorem Handled.keepsOrResets (h : s.Handled t) : s.KeepsOrResets t := by
  cases h with
  | reply id p mode hv => exact .inl (hv.toKeepsBounds.trans (keepsBounds_sendReply id p mode))
  | replyOver id p mode => exact .inl ((keepsBounds_push _).trans (keepsBounds_sendReply id p mode))
  | reset hv => exact .inr ⟨_, hv.toKeepsBounds, rfl⟩

/-! ### The batch -/

/-- Marking the caller of a BUSY `begin_send` keeps the bounds: they ask for no rejected context only without a batch. -/
theorem keepsBounds_beginBatch : s.KeepsBounds s.beginBatch.1 := by
  rcases beginBatch_cases (s := s) with ⟨hbusy, -, m, i, e, -⟩ | ⟨-, e⟩ <;> rw [e]
  · exact keepsBounds_setTx fun ⟨hlen, _⟩ => ⟨hlen, fun h => absurd (hbusy.symm.trans h) (by decide)⟩
  · exact keepsBounds_setTx fun _ => ⟨Nat.zero_le _, fun h => nomatch h⟩

/-- `append_byte` stores a byte only while the batch is below TX_CAP (R173). -/
theorem keepsBounds_appendToBatch (b : Byte) : s.KeepsBounds (s.appendToBatch b) := by
  rcases appendToBatch_cases (s := s) b with ⟨-, e⟩ | ⟨-, -, e⟩ | ⟨-, -, -, e⟩ | ⟨-, -, hroom, e⟩ <;> rw [e]
  · exact keepsBounds_raise _
  · refine keepsBounds_setTx fun ⟨hlen, hidle⟩ => ⟨?_, hidle⟩
    simp only [TxBatch.len, List.length_append, List.length_singleton] at hlen hroom ⊢
    omega

/-- The batch that ends leaves nobody as owner and nobody rejected (R34, R176). -/
theorem keepsBounds_finishBatch : s.KeepsBounds s.finishBatch.1 := by
  have hend : s.KeepsBounds
      (s.setTx { s.port.tx with inProgress := false, owner := none, rejectedM := false, rejectedI := false }) :=
    keepsBounds_setTx fun ⟨hlen, _⟩ => ⟨hlen, fun _ => ⟨rfl, rfl, rfl⟩⟩
  rw [finishBatch_eq]
  simp only
  split
  · exact hend
  · exact hend.trans (keepsBounds_setRxBusy true)

theorem keepsBounds_stepTxByte (i : Nat) : s.KeepsBounds (s.stepTxByte i) := by
  have hcapture := (sameControl_rxCapture (s := s)).toKeepsBounds
  unfold stepTxByte
  simp only
  split
  · exact hcapture.trans ((sameControl_uartWrite _).toKeepsBounds.trans (keepsBounds_replaceTop _))
  · exact hcapture

theorem keepsBounds_stepTxTc : s.KeepsBounds s.stepTxTc := by
  have hcapture := (sameControl_rxCapture (s := s)).toKeepsBounds
  have hfinish := hcapture.trans (keepsBounds_finishBatch (s := s.rxCapture))
  unfold stepTxTc
  simp only
  split
  · split <;> rename_i e <;> rw [e] at hfinish
    · exact hfinish.trans (keepsBounds_replaceTop _)
    · exact hfinish.trans keepsBounds_leave
  · exact hcapture

theorem keepsBounds_endSendEntry : s.KeepsBounds s.endSendEntry := by
  have hfinish := keepsBounds_finishBatch (s := s)
  unfold endSendEntry
  simp only
  split
  · exact .refl s
  split
  · exact keepsBounds_raise _
  split
  · split <;> rename_i e <;> rw [e] at hfinish
    · exact hfinish.trans (keepsBounds_push _)
    · exact hfinish
  · exact (keepsBounds_push _).trans (keepsBounds_stepTxByte 0)

/-! ### Receiving, the tick, the transport -/

theorem keepsBounds_ringGet : s.KeepsBounds (s.setRx (s.port.rx.get s.params.rxCap).2) := keepsBounds_setRx ring_get_ok

theorem keepsBounds_stepDrain : s.KeepsBounds s.stepDrain := by
  rcases stepDrain_cases (s := s) with ⟨-, e⟩ | ⟨-, e⟩ <;> rw [e]
  · exact (keepsBounds_setRxBusy false).trans keepsBounds_leave
  · exact keepsBounds_ringGet.trans (keepsBounds_push _)

theorem keepsBounds_feedEntry (b : Byte) : s.KeepsBounds (s.feedEntry b) := by
  unfold feedEntry
  split
  · exact (sameControl_ringPut b).toKeepsBounds
  · exact (keepsBounds_setRxBusy true).trans ((keepsBounds_push _).trans (keepsBounds_push _))

theorem keepsBounds_tickEntry : s.KeepsBounds s.tickEntry := by
  unfold tickEntry
  split
  · exact keepsBounds_setRet _
  · exact (keepsBounds_setRxBusy true).trans
      ((keepsBounds_setRet _).trans ((keepsBounds_push _).trans (keepsBounds_push _)))

/-- The decision moves the counter and the time of the last emission; the period stays (R310). -/
theorem keepsBounds_stepDecide : s.KeepsBounds s.stepDecide := by
  have hstream : s.KeepsBounds
      (s.setStream { s.port.stream with lastEmitTick := s.nowMs, counter := s.port.stream.counter + 1 }) :=
    keepsBounds_setStream (·)
  unfold stepDecide
  simp only
  split
  · exact hstream.trans (keepsBounds_replaceTop _)
  · exact keepsBounds_replaceTop _

theorem keepsBounds_stepEmit (k now : U32) : s.KeepsBounds (s.stepEmit k now) := by
  unfold stepEmit
  rw [transportSend_once _ _ _ (.inl rfl)]
  exact (keepsBounds_replaceTop _).trans (keepsBounds_push _)

/-- The parser's move on a received byte (R281, R282). -/
theorem sameControl_receive (b : Byte) :
    s.SameControl (s.setTransport (s.port.transport.receive s.params b).1) :=
  sameControl_setTransport (receive_ok _ _ b)

theorem keepsBounds_stepPoll (b : Byte) : s.KeepsBounds (s.stepPoll b) := by
  have hreceive := (sameControl_receive (s := s) b).toKeepsBounds
  unfold stepPoll
  split
  · exact keepsBounds_raise _
  split <;> rename_i t d e <;> rw [e] at hreceive
  · exact hreceive.trans keepsBounds_leave
  · have haccept := hreceive.trans ((keepsBounds_replaceTop .delivered).trans
      (sameControl_acceptDelivery d).toKeepsBounds)
    split <;> rename_i e' <;> rw [e'] at haccept
    · exact haccept.trans (keepsBounds_push _)
    · exact haccept

theorem keepsBounds_stepDelivered : s.KeepsBounds s.stepDelivered :=
  (keepsBounds_setTransport (delivered_ok _ _)).trans keepsBounds_leave

theorem keepsBounds_stepHousekeeping : s.KeepsBounds s.stepHousekeeping := by
  unfold stepHousekeeping
  split
  · exact keepsBounds_raise _
  · exact keepsBounds_leave

theorem keepsBounds_stepTransmit (ph : TransmitPhase) : s.KeepsBounds (s.stepTransmit ph) := by
  cases ph with
  | spaceTest f =>
    simp only [stepTransmit]
    split
    · exact keepsBounds_leave
    · exact keepsBounds_replaceTop _
  | beginBatch f =>
    have hbegin := keepsBounds_beginBatch (s := s)
    simp only [stepTransmit]
    split <;> rename_i e <;> rw [e] at hbegin
    · exact hbegin.trans (keepsBounds_replaceTop _)
    · exact hbegin.trans keepsBounds_leave
  | appendBytes rest =>
    cases rest with
    | nil => exact (keepsBounds_replaceTop _).trans (keepsBounds_endSendEntry.trans (keepsBounds_setStack _))
    | cons b bs => exact (keepsBounds_appendToBatch b).trans (keepsBounds_replaceTop _)

/-! ### A context's step, a called operation, an act of the environment -/

/-- The innermost activation's step. -/
theorem keepsOrResets_advance : s.KeepsOrResets s.advance := by
  unfold advance
  generalize s.stack = l
  cases l with
  | nil => exact .refl s
  | cons a l =>
    cases a with
    | feed | drain => exact .inl keepsBounds_stepDrain
    | tick ph =>
      cases ph with
      | decide => exact .inl keepsBounds_stepDecide
      | emit k now => exact .inl (keepsBounds_stepEmit k now)
      | drain => exact .inl keepsBounds_stepDrain
    | endSend ph =>
      cases ph with
      | txByte i => exact .inl (keepsBounds_stepTxByte i)
      | txTc => exact .inl keepsBounds_stepTxTc
      | drain => exact .inl keepsBounds_stepDrain
    | poll b => exact .inl (keepsBounds_stepPoll b)
    | delivered => exact .inl keepsBounds_stepDelivered
    | housekeeping => exact .inl keepsBounds_stepHousekeeping
    | dispatch => exact .refl s
    | transmit ph => exact .inl (keepsBounds_stepTransmit ph)
    | relSent => exact .inl keepsBounds_leave
    | getConfig k total => exact (keepsBounds_setStack _).thenKeepsOrResets (handled_sendChunks k total).keepsOrResets
    | sysReset => exact keepsOrResets_systemReset s
    | awaiting => exact .inl (keepsBounds_setStack _)

end State

/-- A called operation or a handled frame that goes on. -/
theorem exec_keepsOrResets {i : Instr} {s t : State} (h : exec i s = .next t) : s.KeepsOrResets t := by
  cases hframe : i.frame? 0 with
  | some f =>
    obtain ⟨u, hexec, hu⟩ := exec_frame_handled hframe s
    cases hexec.symm.trans h
    exact hu.keepsOrResets
  | none =>
    cases i with
    | crc16Step | crc16 | crc32Step | crc32 | spaceRemaining | nowMs =>
      cases h
      exact .inl (State.keepsBounds_setRet _)
    | ringPut b =>
      cases h
      exact .inl ((State.sameControl_ringPut b).toKeepsBounds.trans (State.keepsBounds_setRet _))
    | ringGet =>
      change execRingGet s = _ at h
      unfold execRingGet at h
      split at h
      · cases h
      · cases h
        exact .inl (State.keepsBounds_ringGet.trans (State.keepsBounds_setRet _))
    | beginSend =>
      cases h
      exact .inl (State.keepsBounds_beginBatch.trans (State.keepsBounds_setRet _))
    | appendByte b =>
      obtain ⟨-, rfl⟩ := State.settle_eq_next_iff.1 h
      exact .inl (State.keepsBounds_appendToBatch b)
    | endSend =>
      obtain ⟨-, rfl⟩ := State.settle_eq_next_iff.1 h
      exact .inl State.keepsBounds_endSendEntry
    | feed b => cases h; exact .inl (State.keepsBounds_feedEntry b)
    | drainAndRelease => cases h; exact .inl ((State.keepsBounds_push _).trans State.keepsBounds_stepDrain)
    | tick => cases h; exact .inl State.keepsBounds_tickEntry
    | dispatch id p =>
      cases h
      exact (State.keepsBounds_push _).thenKeepsOrResets (State.handled_handle id p).keepsOrResets
    | reply id p mode => cases h; exact .inl (State.keepsBounds_sendReply id p mode)
    | _ => cases hframe

namespace State

variable {s : State}

theorem sameControl_setClock (c : U32) (n : Nat) : s.SameControl { s with clock := c, wdt := n } :=
  KeepsBounds.sameControl ⟨id, rfl, rfl⟩ rfl rfl rfl rfl

/-- What an act of the environment can do: nothing on the control; a system reset after that; a transmission of the OPEN
layer on the running context; the choice of another port. -/
theorem act_cases (e : Event) (s : State) :
    s.SameControl (s.act e) ∨
    (∃ v, s.SameControl v ∧ s.act e = systemReset v) ∨
    (∃ k seq, s.act e = (s.setCtx s.port.running).relTransmit k seq) ∨
    ∃ k, e = .selectPort k := by
  cases e with
  | advance | call | frame | rxEntry => exact .inl (.refl s)
  | uartFlags | uartRx | uartTxe | uartTc => exact .inl (sameControl_setUart _)
  | wdtRefresh => exact .inl (sameControl_setWdt 0)
  | wdtExpire | powerOn => exact .inr (.inl ⟨s, .refl s, rfl⟩)
  | driverState => exact .inl (sameControl_setDriver _)
  | adcSample | dinLevel | execTable => exact .inl (KeepsBounds.sameControl ⟨id, rfl, rfl⟩ rfl rfl rfl rfl)
  | relAck k =>
    exact .inl (sameControl_setTransport
      (x := { s.port.transport with relQueue := s.port.transport.relQueue.eraseIdx k }) (·))
  | relTransmit k seq => exact .inr (.inr (.inl ⟨k, seq, rfl⟩))
  | selectPort k => exact .inr (.inr (.inr ⟨k, rfl⟩))
  | elapse ms =>
    simp only [act, elapse]
    split
    · exact .inr (.inl ⟨_, sameControl_setClock .., rfl⟩)
    · exact .inl (sameControl_setClock ..)

theorem keepsBounds_relTransmit (k : Nat) (seq : Byte) : s.KeepsBounds (s.relTransmit k seq) := by
  rcases relTransmit_cases k seq s with e | ⟨f, -, -, -, -, e⟩ <;> rw [e]
  exact keepsBounds_push _

/-- Every act but the choice of another port. -/
theorem keepsOrResets_act {e : Event} (he : ∀ k, e ≠ .selectPort k) : s.KeepsOrResets (s.act e) := by
  rcases act_cases e s with h | ⟨v, hv, h⟩ | ⟨k, seq, h⟩ | ⟨k, h⟩
  · exact .inl h.toKeepsBounds
  · exact .inr ⟨v, hv.toKeepsBounds, h⟩
  · rw [h]
    exact .inl ((keepsBounds_setCtx _).trans (keepsBounds_relTransmit k seq))
  · exact absurd h (he k)

@[simp] theorem selectPort_params (k : Nat) : (s.selectPort k).params = s.params := by
  unfold selectPort
  split <;> rfl

/-- The selected port and the one that moves next change places, so the bounds of every port stay (R412). -/
theorem selectPort_inv (k : Nat) (h : s.Inv) : (s.selectPort k).Inv := by
  obtain ⟨hport, hothers, hports, hrest⟩ := h
  unfold selectPort
  split
  · rename_i p hp
    refine ⟨hothers p (List.mem_of_getElem? hp), fun q hq => ?_, by simpa using hports, hrest⟩
    rcases List.mem_or_eq_of_mem_set hq with hq | rfl
    · exact hothers q hq
    · exact hport
  · exact ⟨hport, hothers, hports, hrest⟩

end State

/-! ### The step -/

/-- The state a move starts from. -/
def Move.start : Move → State
  | .env s => s
  | .call _ s => s
  | .frame _ s => s
  | .run s => s

namespace State

variable {s : State}

theorem keepsBounds_runMove : s.KeepsBounds s.runMove.start := by
  rcases runMove_cases s with ⟨b, l, -, e⟩ | ⟨-, e⟩ <;> rw [e]
  · exact (keepsBounds_setCtx _).trans (keepsBounds_replaceTop _)
  · exact keepsBounds_setCtx _

theorem keepsBounds_rxMove (c : Ctx) : s.KeepsBounds (s.rxMove c).start := by
  rcases rxMove_cases s c with ⟨-, e⟩ | ⟨-, e⟩ <;> rw [e]
  · exact (keepsBounds_setUart _).trans (keepsBounds_setCtx c)
  · exact .refl s

/-- A move starts within the bounds, unless it is an act of the environment. -/
theorem keepsBounds_nextMove :
    s.KeepsBounds s.nextMove.start ∨
    ∃ e rest, s.schedule = e :: rest ∧ s.nextMove = .env ((s.setSchedule rest).act e) := by
  rcases nextMove_cases s with h | ⟨rest, -, h⟩ | ⟨c, i, rest, -, -, h⟩ | ⟨c, b, rest, -, -, h⟩ | ⟨c, rest, -, -, h⟩ |
    ⟨e, rest, hsched, -, h⟩
  · exact .inl (h ▸ keepsBounds_runMove)
  · exact .inl (h ▸ (keepsBounds_setSchedule rest).trans keepsBounds_runMove)
  · exact .inl (h ▸ (keepsBounds_setSchedule rest).trans (keepsBounds_setCtx c))
  · exact .inl (h ▸ (keepsBounds_setSchedule rest).trans ((keepsBounds_setCtx c).trans (keepsBounds_push _)))
  · exact .inl (h ▸ (keepsBounds_setSchedule rest).trans (keepsBounds_rxMove c))
  · exact .inr ⟨e, rest, hsched, h⟩

end State

/-- A step keeps the bounds or resets the system, unless it is the choice of another port. -/
theorem step_keepsOrResets_or_selectPort {s t : State} (h : step s = .next t) :
    s.KeepsOrResets t ∨ ∃ k rest, s.schedule = .selectPort k :: rest ∧ t = (s.setSchedule rest).selectPort k := by
  obtain ⟨-, hmove⟩ := step_cases h
  rcases State.keepsBounds_nextMove (s := s) with hstart | ⟨e, rest, hsched, hact⟩
  · left
    rcases hmove with hm | ⟨i, u, hm, -, hexec⟩ | ⟨b, i, u, hm, -, hexec⟩ | ⟨u, hm, -, rfl⟩ <;> rw [hm] at hstart
    · exact .inl hstart
    · exact hstart.thenKeepsOrResets (exec_keepsOrResets hexec)
    · exact hstart.thenKeepsOrResets (exec_keepsOrResets hexec)
    · exact hstart.thenKeepsOrResets State.keepsOrResets_advance
  · rw [hact] at hmove
    obtain rfl : t = (s.setSchedule rest).act e := by
      rcases hmove with hm | ⟨i, u, hm, -⟩ | ⟨b, i, u, hm, -⟩ | ⟨u, hm, -⟩ <;> cases hm
      rfl
    by_cases he : ∃ k, e = .selectPort k
    · obtain ⟨k, rfl⟩ := he
      exact .inr ⟨k, rest, hsched, rfl⟩
    · exact .inl ((State.keepsBounds_setSchedule rest).thenKeepsOrResets
        (State.keepsOrResets_act fun k hk => he ⟨k, hk⟩))

/-- Settles O10: each operation a step can run keeps the bounds, up to a system reset, which reestablishes them; the choice
of another port only swaps two ports that are within them. -/
theorem stepKeepsBounds : Obligations.StepKeepsBounds := by
  intro s t hstep
  rcases step_keepsOrResets_or_selectPort hstep with h | ⟨k, rest, hsched, rfl⟩
  · exact ⟨h.inv, h.params, fun _ => h.others⟩
  · exact ⟨fun hs => State.selectPort_inv k hs, State.selectPort_params k, fun hno => absurd hsched (hno k rest)⟩

end Sys2Proof.Machine

/-! ## The recorded fault, the first step of a transmission, and the ring's overflow -/

namespace Sys2Proof.Machine

/-- A state with a recorded fault takes no step (R43). -/
theorem step_of_fault {s : State} {k : Fault} (h : s.fault = some k) : step s = .fault k := by
  simp only [step, h]

/-- Settles O8: the step stops, the reset does not write the fault, and `raise` keeps the first one. -/
theorem faultIsSticky : Obligations.FaultIsSticky := by
  refine ⟨rfl, fun s k h => ⟨step_of_fault h, State.systemReset_fault.trans h, fun k' => ?_⟩⟩
  rw [State.raise_fault, h, Option.getD_some]

namespace State

variable {s : State}

/-! ### end_send -/

/-- Stack updates commute with updates of the ring and of the UART. -/
theorem setStack_setRx (l : List Activation) (r : Ring) : (s.setStack l).setRx r = (s.setRx r).setStack l := by
  unfold setStack setRx Port.setContext Port.context; cases s.ctx <;> rfl

theorem setStack_setUart (l : List Activation) (x : Uart) : (s.setStack l).setUart x = (s.setUart x).setStack l := by
  unfold setStack setUart Port.setContext Port.context; cases s.ctx <;> rfl

theorem uartWrite_setStack (l : List Activation) (b : Byte) :
    (s.setStack l).uartWrite b = (s.uartWrite b).setStack l := setStack_setUart l _

/-- The receive poll of a wait iteration, as an equation. -/
theorem rxCapture_eq :
    s.rxCapture = if s.port.uart.rxne then
      (s.setRx (s.port.rx.put s.params.rxCap s.port.uart.rdr).1).setUart { s.port.uart with rxne := false } else s := rfl

theorem rxCapture_setStack (l : List Activation) : (s.setStack l).rxCapture = s.rxCapture.setStack l := by
  rw [rxCapture_eq, rxCapture_eq]
  simp only [setStack_uart, setStack_rx, setStack_params, setStack_setRx, setStack_setUart]
  split <;> rfl

/-- The receive poll leaves what transmitting needs: TXE, TC, the bytes sent (R176). -/
theorem rxCapture_uart : s.rxCapture.port.uart = { s.port.uart with rxne := false } := by
  rcases rxCapture_cases (s := s) with ⟨hnone, e⟩ | ⟨-, e⟩ <;> rw [e]
  · rw [← hnone]
  · rfl

/-- `end_send` of the owner's batch with bytes enters its first wait iteration (R176). -/
theorem endSendEntry_of_bytes (hprogress : s.port.tx.inProgress = true) (howner : s.port.tx.foreign s.ctx = false)
    (hbytes : s.port.tx.buf ≠ []) :
    s.endSendEntry = (s.push (.endSend (.txByte 0))).stepTxByte 0 := by
  have hlen : s.port.tx.len ≠ 0 := fun h => hbytes (List.length_eq_zero_iff.1 h)
  simp only [endSendEntry, hprogress, howner, hlen]
  rfl

/-- One wait iteration of a transmission just entered: the receive poll, and with TXE the write of byte `i`. -/
theorem stepTxByte_push (i : Nat) :
    (s.push (.endSend (.txByte i))).stepTxByte i =
      if s.port.uart.txe then
        (s.rxCapture.uartWrite (byteAt s.port.tx.buf i)).setStack
          (.endSend (if i + 1 < s.port.tx.len then .txByte (i + 1) else .txTc) :: s.stack)
      else s.rxCapture.setStack (.endSend (.txByte i) :: s.stack) := by
  have htxe : s.rxCapture.port.uart.txe = s.port.uart.txe := by rw [rxCapture_uart]
  have htx := (sameControl_rxCapture (s := s)).tx
  simp only [push_eq, stepTxByte, rxCapture_setStack, setStack_uart, setStack_tx, htxe, htx, uartWrite_setStack,
    replaceTop_eq, setStack_setStack, setStack_stack, List.tail_cons]

end State

/-- Settles O23: the entry finds the owner's batch with bytes, and its first wait iteration captures and writes. -/
theorem endSendStarts : Obligations.EndSendStarts := by
  intro s b bs hfault hprogress howner hrejected hbuf
  have hforeign := (State.foreign_eq_false_iff s.port.tx s.ctx).2 ⟨howner, hrejected⟩
  have hstep := (State.endSendEntry_of_bytes hprogress hforeign (by simp [hbuf])).trans (State.stepTxByte_push 0)
  have hphase : (if 0 + 1 < s.port.tx.len then SendPhase.txByte (0 + 1) else .txTc) =
      if bs = [] then .txTc else .txByte 1 := by
    cases bs <;> simp [TxBatch.len, hbuf]
  have hwrite : s.rxCapture.uartWrite b =
      s.rxCapture.setUart { s.rxCapture.port.uart with txe := false, tc := false, sent := s.port.uart.sent ++ [b] } := by
    rw [State.uartWrite, State.rxCapture_uart]
  have hfirst : byteAt s.port.tx.buf 0 = b := by rw [hbuf]; rfl
  rw [hphase, hfirst, hwrite] at hstep
  have hnofault : s.endSendEntry.fault = none := by
    rw [hstep, ← hfault]
    split
    · exact (State.sameControl_rxCapture (s := s)).fault
    · exact (State.sameControl_rxCapture (s := s)).fault
  exact (State.settle_of_none hnofault).trans (congrArg Host.Outcome.next hstep)

/-! ### The ring's unread bytes -/

namespace Ring

variable {cap : Nat} {r : Ring}

/-- An index that ran past the end once wraps by one length. -/
theorem wrap_eq {x : Nat} (hx : x < 2 * cap) : x % cap = if x < cap then x else x - cap := by
  split
  · exact Nat.mod_eq_of_lt (by assumption)
  · rw [Nat.mod_eq_sub_mod (by omega), Nat.mod_eq_of_lt (by omega)]

/-- The occupancy without a modulus (R36). -/
theorem count_eq (h : r.ok cap) :
    r.count cap = if r.tail ≤ r.head then r.head - r.tail else r.head + cap - r.tail := by
  obtain ⟨-, hhead, htail⟩ := h
  rw [count, wrap_eq (by omega)]
  split <;> split <;> omega

theorem length_unread : (r.unread cap).length = r.count cap := by simp [unread]

/-- At most `RX_CAP − 1` bytes are unread (R36). -/
theorem count_le (h : r.ok cap) : r.count cap ≤ cap - 1 := by
  rw [count_eq h]
  obtain ⟨-, hhead, htail⟩ := h
  split <;> omega

/-- Full means `RX_CAP − 1` unread bytes (R36). -/
theorem full_iff_count (h : r.ok cap) : (r.head + 1) % cap = r.tail ↔ r.count cap = cap - 1 := by
  rw [count_eq h]
  obtain ⟨-, hhead, htail⟩ := h
  rw [wrap_eq (by omega)]
  split <;> split <;> omega

/-- The write index is the read index advanced by the occupancy. -/
theorem head_eq (h : r.ok cap) : (r.tail + r.count cap) % cap = r.head := by
  have hcount := count_eq h
  obtain ⟨-, hhead, htail⟩ := h
  rw [wrap_eq (by split at hcount <;> omega)]
  split at hcount <;> split <;> omega

/-- No unread byte stands at the write index. -/
theorem unread_index_ne_head (h : r.ok cap) {k : Nat} (hk : k < r.count cap) : (r.tail + k) % cap ≠ r.head := by
  rw [count_eq h] at hk
  obtain ⟨-, hhead, htail⟩ := h
  rw [wrap_eq (by split at hk <;> omega)]
  split at hk <;> split <;> omega

/-- With room left, one byte more is unread after the write index moved on. -/
theorem count_put (h : r.ok cap) (hroom : (r.head + 1) % cap ≠ r.tail) (b : Byte) :
    (r.put cap b).1.count cap = r.count cap + 1 := by
  have hok := State.ring_put_ok b h
  rcases State.ring_put_cases cap b r with ⟨hfull, -⟩ | ⟨-, e⟩
  · exact absurd hfull hroom
  rw [e] at hok ⊢
  rw [count_eq hok, count_eq h]
  obtain ⟨-, hhead, htail⟩ := h
  simp only [wrap_eq (show r.head + 1 < 2 * cap by omega)] at hroom ⊢
  by_cases hwrap : r.head + 1 < cap
  · simp only [if_pos hwrap] at hroom ⊢
    split <;> split <;> omega
  · simp only [if_neg hwrap] at hroom ⊢
    split <;> split <;> omega

/-- A byte put into a ring with room stands behind the unread ones (R170, R183). -/
theorem unread_put (h : r.ok cap) (hroom : (r.head + 1) % cap ≠ r.tail) (b : Byte) :
    (r.put cap b).1.unread cap = r.unread cap ++ [b] := by
  have hcount := count_put h hroom b
  rcases State.ring_put_cases cap b r with ⟨hfull, -⟩ | ⟨-, e⟩
  · exact absurd hfull hroom
  rw [e] at hcount ⊢
  have hold : ∀ k ∈ List.range (r.count cap),
      byteAt (r.buf.set r.head b) ((r.tail + k) % cap) = byteAt r.buf ((r.tail + k) % cap) := fun k hk => by
    have hne := unread_index_ne_head h (List.mem_range.1 hk)
    simp [byteAt, List.getD, List.getElem?_set_ne (Ne.symm hne)]
  have hnew : byteAt (r.buf.set r.head b) ((r.tail + r.count cap) % cap) = b := by
    have hlt : r.head < r.buf.length := h.1.symm ▸ h.2.1
    simp [byteAt, head_eq h, List.getD, hlt]
  simp only [unread, hcount, List.range_succ, List.map_append, List.map_congr_left hold, List.map_singleton, hnew]

/-- A full ring drops the byte (R182). -/
theorem put_full (hfull : (r.head + 1) % cap = r.tail) (b : Byte) : (r.put cap b).1 = r := by
  rcases State.ring_put_cases cap b r with ⟨-, e⟩ | ⟨hroom, -⟩
  · rw [e]
  · exact absurd hfull hroom

/-- An empty ring has no unread byte. -/
theorem unread_of_empty (h : r.ok cap) (hempty : r.head = r.tail) : r.unread cap = [] := by
  rw [← List.length_eq_zero_iff, length_unread, count_eq h, hempty]
  simp

/-- Putting bytes one after another: the unread bytes grow up to `RX_CAP − 1`, and what comes then is dropped. -/
theorem unread_foldl_put (l : List Byte) (h : r.ok cap) :
    (l.foldl (fun r b => (r.put cap b).1) r).unread cap = (r.unread cap ++ l).take (cap - 1) := by
  induction l generalizing r with
  | nil => rw [List.append_nil, List.take_of_length_le (by rw [length_unread]; exact count_le h)]; rfl
  | cons b bs ih =>
    rw [List.foldl_cons, ih (State.ring_put_ok b h)]
    by_cases hfull : (r.head + 1) % cap = r.tail
    · have hlength : (r.unread cap).length = cap - 1 := by rw [length_unread, (full_iff_count h).1 hfull]
      rw [put_full hfull, List.take_left' hlength, List.take_left' hlength]
    · rw [unread_put h hfull, List.append_assoc, List.singleton_append]

end Ring

/-- Settles O19: the law of overflow for a run of puts, from a ring with nothing unread. -/
theorem ringKeepsTheFirstBytes : Obligations.RingKeepsTheFirstBytes := by
  intro cap r l _ hok hempty
  rw [Ring.unread_foldl_put l hok, Ring.unread_of_empty hok hempty, List.nil_append]

end Sys2Proof.Machine

/-! ## A machine driven through its own entries never faults

A busy orderly machine is in one of two situations: its executing context rests (no batch in flight) or sends (its innermost
activation drives the batch it owns). Each operation of a step is a rule between these situations. -/

namespace Sys2Proof.Machine

/-! ### The shape of a busy context's stack -/

/-- The stack of a busy context that has no batch in flight. -/
def restingStack (l : List Activation) : Prop := orderlyStack l ∧ ∀ a ∈ l, a.holdsBatch = false

theorem not_orderlyStack_nil : ¬ orderlyStack [] := by
  rintro ⟨inner, entry, h, -⟩
  simp at h

theorem Activation.not_holdsBatch_of_isEntry {a : Activation} (h : a.isEntry = true) : a.holdsBatch = false := by
  cases a <;> simp_all [isEntry, holdsBatch]

theorem Activation.not_inTransport_of_isEntry {a : Activation} (h : a.isEntry = true) : a.inTransport = false := by
  cases a <;> simp_all [isEntry, inTransport]

theorem Activation.not_isEntry_of_isAwaiting {a : Activation} (h : a.isAwaiting = true) : a.isEntry = false := by
  cases a <;> simp_all [isAwaiting, isEntry]

/-- An orderly stack from its top: the entry alone, or an inner operation over a stack that rests and has no transport
activation where the top is one. -/
theorem orderlyStack_cons_iff (a : Activation) (l : List Activation) :
    orderlyStack (a :: l) ↔ a.isEntry = true ∧ l = [] ∨
      a.isInner = true ∧ a.frameOk = true ∧ restingStack l ∧
        (a.inTransport = true → ∀ x ∈ l, x.inTransport = false) := by
  constructor
  · rintro ⟨inner, entry, hl, hentry, hinner, hbatch, htransport, hframe⟩
    cases inner with
    | nil =>
      obtain ⟨rfl, rfl⟩ := List.cons_eq_cons.1 hl
      exact .inl ⟨hentry, rfl⟩
    | cons x inner =>
      obtain ⟨rfl, rfl⟩ := List.cons_eq_cons.1 hl
      simp only [List.all_cons, Bool.and_eq_true] at hinner hframe
      have hrest : ∀ y ∈ inner ++ [entry], y.holdsBatch = false := fun y hy => by
        simpa using List.all_eq_true.1 hbatch y hy
      have hsub : (inner.filter Activation.inTransport).length ≤ 1 :=
        ((List.sublist_cons_self a inner).filter _).length_le.trans htransport
      refine .inr ⟨hinner.1, hframe.1, ⟨⟨inner, entry, rfl, hentry, hinner.2, ?_, hsub, hframe.2⟩, hrest⟩, ?_⟩
      · exact List.all_eq_true.2 fun y hy => by simp [hrest y (List.mem_of_mem_tail hy)]
      · intro ha
        have hnone : inner.filter Activation.inTransport = [] := by
          rw [List.filter_cons_of_pos ha, List.length_cons] at htransport
          exact List.length_eq_zero_iff.1 (by omega)
        intro y hy
        rcases List.mem_append.1 hy with hy | hy
        · simpa using List.filter_eq_nil_iff.1 hnone y hy
        · rw [List.mem_singleton.1 hy]
          exact Activation.not_inTransport_of_isEntry hentry
  · rintro (⟨hentry, rfl⟩ | ⟨hinner, hframe, ⟨⟨inner, entry, rfl, hentry, hall, -, hcount, hframes⟩, hrest⟩, htransport⟩)
    · exact ⟨[], a, rfl, hentry, rfl, rfl, Nat.zero_le _, rfl⟩
    · refine ⟨a :: inner, entry, rfl, hentry, by rw [List.all_cons, hinner, hall]; rfl,
        List.all_eq_true.2 fun y hy => by simp [hrest y hy], ?_, by rw [List.all_cons, hframe, hframes]; rfl⟩
      rw [List.filter_cons]
      split
      · rename_i ha
        have hnone : inner.filter Activation.inTransport = [] :=
          List.filter_eq_nil_iff.2 fun x hx => by simp [htransport ha x (List.mem_append_left _ hx)]
        simp [hnone]
      · exact hcount

/-- The same for a stack that rests. -/
theorem restingStack_cons_iff (a : Activation) (l : List Activation) :
    restingStack (a :: l) ↔ a.holdsBatch = false ∧ (a.isEntry = true ∧ l = [] ∨
      a.isInner = true ∧ a.frameOk = true ∧ restingStack l ∧
        (a.inTransport = true → ∀ x ∈ l, x.inTransport = false)) := by
  unfold restingStack
  rw [orderlyStack_cons_iff, List.forall_mem_cons]
  constructor
  · rintro ⟨h, ha, -⟩
    exact ⟨ha, h⟩
  · rintro ⟨ha, h⟩
    refine ⟨h, ha, ?_⟩
    rcases h with ⟨-, rfl⟩ | ⟨-, -, hl, -⟩
    · exact fun _ h => nomatch h
    · exact hl.2

theorem not_restingStack_nil : ¬ restingStack [] := fun h => not_orderlyStack_nil h.1

/-- An entry rests alone. -/
theorem restingStack_entry {a : Activation} (h : a.isEntry = true) : restingStack [a] :=
  (restingStack_cons_iff a []).2 ⟨Activation.not_holdsBatch_of_isEntry h, .inl ⟨h, rfl⟩⟩

/-- Operations that only wait are inner ones, so a resting stack is never used up by returning from them (R408). -/
theorem restingStack.dropWhile {l : List Activation} (h : restingStack l) :
    restingStack (l.dropWhile Activation.isAwaiting) := by
  induction l with
  | nil => exact h
  | cons a l ih =>
    rw [List.dropWhile_cons]
    split
    · rename_i hawaiting
      obtain ⟨-, ⟨hentry, -⟩ | ⟨-, -, hl, -⟩⟩ := (restingStack_cons_iff a l).1 h
      · rw [Activation.not_isEntry_of_isAwaiting hawaiting] at hentry
        cases hentry
      · exact ih hl
    · exact h

/-- Under an inner top the stack rests. -/
theorem restingStack.tail_of_inner {a : Activation} {l : List Activation} (h : restingStack (a :: l))
    (ha : a.isEntry = false) : restingStack l := by
  obtain ⟨-, ⟨hentry, -⟩ | ⟨-, -, hl, -⟩⟩ := (restingStack_cons_iff a l).1 h
  · rw [ha] at hentry
    cases hentry
  · exact hl

/-- An inner operation outside the transport's parser, without a batch, may be entered anywhere. -/
theorem restingStack.cons {a : Activation} {l : List Activation} (hl : restingStack l) (hinner : a.isInner = true)
    (hframe : a.frameOk = true) (hbatch : a.holdsBatch = false) (htransport : a.inTransport = false) :
    restingStack (a :: l) :=
  (restingStack_cons_iff a l).2 ⟨hbatch, .inr ⟨hinner, hframe, hl, fun h => absurd (htransport.symm.trans h) (by decide)⟩⟩

/-! ### The two situations -/

namespace State

variable {s t : State}

/-- The executing context has the port to itself: the guard is held, the other context is idle, nobody was rejected. -/
structure Exclusive (s : State) : Prop where
  fault : s.fault = none
  schedule : s.schedule.all Event.orderly = true
  others : ∀ q ∈ s.others, q.orderly
  otherIdle : (s.port.context s.ctx.other).stack = []
  guard : s.port.rxBusy = true
  rejectedM : s.port.tx.rejectedM = false
  rejectedI : s.port.tx.rejectedI = false
  receiver : s.port.transport.rx.ok

/-- It is busy without a batch in flight. -/
structure Resting (s : State) : Prop extends s.Exclusive where
  stack : restingStack s.stack
  batch : s.port.tx.inProgress = false

/-- It owns the batch in flight. -/
structure Owning (s : State) : Prop extends s.Exclusive where
  batch : s.port.tx.inProgress = true
  owner : s.port.tx.owner = some s.ctx

/-- Its innermost activation drives the batch that it owns. -/
structure Sending (s : State) : Prop extends s.Owning where
  stack : ∃ a l, s.stack = a :: l ∧ a.holdsBatch = true ∧ restingStack l

/-- Every context is idle and the guard is free. -/
structure Idle (s : State) : Prop where
  fault : s.fault = none
  schedule : s.schedule.all Event.orderly = true
  others : ∀ q ∈ s.others, q.orderly
  idle : ∀ c, (s.port.context c).stack = []
  guard : s.port.rxBusy = false
  batch : s.port.tx.inProgress = false
  rejectedM : s.port.tx.rejectedM = false
  rejectedI : s.port.tx.rejectedI = false
  receiver : s.port.transport.rx.ok

/-- The stack of a context other than the executing one. -/
theorem Exclusive.stack_of_ne (h : s.Exclusive) {c : Ctx} (hc : c ≠ s.ctx) : (s.port.context c).stack = [] := by
  have hother : c = s.ctx.other := by
    revert hc
    cases c <;> cases s.ctx <;> simp [Ctx.other]
  rw [hother]
  exact h.otherIdle

/-- What makes a machine with a busy context orderly: its stack, and the batch in flight exactly as its top says. -/
theorem Exclusive.orderly (h : s.Exclusive) (hstack : orderlyStack s.stack)
    (hbatch : s.port.tx.inProgress = true ↔ ∃ a, s.stack.head? = some a ∧ a.holdsBatch = true)
    (howner : ∀ a, s.stack.head? = some a → a.holdsBatch = true → s.port.tx.owner = some s.ctx) : s.Orderly := by
  have hbusy : s.stack ≠ [] := fun e => not_orderlyStack_nil (e ▸ hstack)
  have honly : ∀ c a, (s.port.context c).stack.head? = some a → c = s.ctx := fun c a ha => by
    by_contra hc
    rw [h.stack_of_ne hc] at ha
    cases ha
  refine ⟨h.fault, h.schedule, ⟨?_, ⟨fun _ => ?_, fun _ => h.guard⟩, fun c hc => ?_, hbatch.trans ⟨?_, ?_⟩,
    fun c a ha => ?_, h.rejectedM, h.rejectedI, h.receiver⟩, h.others⟩
  · have hidle := h.otherIdle
    cases hctx : s.ctx <;> rw [hctx] at hidle
    · exact .inr hidle
    · exact .inl hidle
  · cases hctx : s.ctx <;> rw [State.stack, hctx] at hbusy
    · exact .inl hbusy
    · exact .inr hbusy
  · obtain rfl : c = s.ctx := by
      by_contra hne
      exact hc (h.stack_of_ne hne)
    exact hstack
  · rintro ⟨a, ha, hholds⟩
    exact ⟨s.ctx, a, ha, hholds⟩
  · rintro ⟨c, a, ha, hholds⟩
    obtain rfl := honly c a ha
    exact ⟨a, ha, hholds⟩
  · obtain rfl := honly c a ha
    exact howner a ha

theorem Resting.orderly (h : s.Resting) : s.Orderly := by
  have hnone : ∀ a, s.stack.head? = some a → a.holdsBatch ≠ true := fun a ha => by
    rw [h.stack.2 a (List.mem_of_mem_head? ha)]
    decide
  refine h.toExclusive.orderly h.stack.1 ⟨fun hb => ?_, ?_⟩ fun a ha hholds => absurd hholds (hnone a ha)
  · rw [h.batch] at hb
    cases hb
  · rintro ⟨a, ha, hholds⟩
    exact absurd hholds (hnone a ha)

theorem Sending.orderly (h : s.Sending) : s.Orderly := by
  obtain ⟨a, l, hstack, hholds, hl⟩ := h.stack
  have hinner : a.isInner = true ∧ a.frameOk = true ∧ a.inTransport = false := by
    cases a <;> simp_all [Activation.holdsBatch, Activation.isInner, Activation.frameOk, Activation.inTransport]
    split at hholds <;> simp_all
  obtain ⟨hinner, hframe, htransport⟩ := hinner
  refine h.toExclusive.orderly ?_ ⟨fun _ => ⟨a, by rw [hstack]; rfl, hholds⟩, fun _ => h.batch⟩ fun _ _ _ => h.owner
  rw [hstack]
  exact (orderlyStack_cons_iff a l).2
    (.inr ⟨hinner, hframe, hl, fun h => absurd (htransport.symm.trans h) (by decide)⟩)

theorem Idle.orderly (h : s.Idle) : s.Orderly := by
  refine ⟨h.fault, h.schedule, ⟨.inl (h.idle .m), ⟨fun hb => ?_, fun hb => ?_⟩,
    fun c hc => absurd (h.idle c) hc, ⟨fun hb => ?_, ?_⟩, fun c a ha => ?_, h.rejectedM, h.rejectedI, h.receiver⟩,
    h.others⟩
  · rw [h.guard] at hb
    cases hb
  · exact (hb.elim (· (h.idle .m)) (· (h.idle .i))).elim
  · rw [h.batch] at hb
    cases hb
  · rintro ⟨c, a, ha, -⟩
    rw [h.idle c] at ha
    cases ha
  · rw [h.idle c] at ha
    cases ha

/-- The stack of the context that runs next decides: both are idle, or it alone is busy (R81). -/
theorem running_idle_iff (q : Port) : (q.context q.running).stack = [] ↔ q.ctxM.stack = [] ∧ q.ctxI.stack = [] := by
  unfold Port.running Port.iActive
  cases hI : q.ctxI.stack <;> simp [Port.context, hI]

theorem running_other_idle {q : Port} (h : q.ctxM.stack = [] ∨ q.ctxI.stack = []) :
    (q.context q.running.other).stack = [] := by
  unfold Port.running Port.iActive
  cases hI : q.ctxI.stack
  · simp [Port.context, Ctx.other, hI]
  · rw [hI] at h
    simpa [Port.context, Ctx.other] using h

/-- An orderly machine, its running context executing, is idle, resting or sending. -/
theorem Orderly.running_cases (h : s.Orderly) :
    (s.setCtx s.port.running).Idle ∨ (s.setCtx s.port.running).Resting ∨ (s.setCtx s.port.running).Sending := by
  obtain ⟨hfault, hschedule, ⟨hone, hguard, hstack, hbatch, howner, hrejM, hrejI, hreceiver⟩, hothers⟩ := h
  by_cases hidle : (s.port.context s.port.running).stack = []
  · obtain ⟨hm, hi⟩ := (running_idle_iff s.port).1 hidle
    have hstacks : ∀ c, (s.port.context c).stack = [] := fun c => by
      cases c
      · exact hm
      · exact hi
    refine .inl ⟨hfault, hschedule, hothers, hstacks, Bool.eq_false_iff.2 fun hb => ?_,
      Bool.eq_false_iff.2 fun hb => ?_, hrejM, hrejI, hreceiver⟩
    · exact ((hguard.1 hb).elim (· hm) (· hi)).elim
    · obtain ⟨c, a, ha, -⟩ := hbatch.1 hb
      rw [hstacks c] at ha
      cases ha
  · right
    have hother := running_other_idle hone
    have hbusy : s.port.rxBusy = true := by
      refine hguard.2 ?_
      by_contra hnone
      exact hidle ((running_idle_iff s.port).2 ⟨not_not.1 fun h => hnone (.inl h), not_not.1 fun h => hnone (.inr h)⟩)
    have hexclusive : (s.setCtx s.port.running).Exclusive :=
      ⟨hfault, hschedule, hothers, hother, hbusy, hrejM, hrejI, hreceiver⟩
    obtain ⟨a, l, htop⟩ := List.exists_cons_of_ne_nil hidle
    have horderly := hstack s.port.running hidle
    rw [htop] at horderly
    cases hholds : a.holdsBatch
    · refine .inl ⟨hexclusive, ?_, Bool.eq_false_iff.2 fun hb => ?_⟩
      · rw [setCtx_stack, htop, restingStack_cons_iff]
        exact ⟨hholds, (orderlyStack_cons_iff a l).1 horderly⟩
      · obtain ⟨c, x, hx, hxholds⟩ := hbatch.1 hb
        obtain rfl : c = s.port.running := by
          by_contra hne
          have hnone : (s.port.context c).stack = [] := hexclusive.stack_of_ne hne
          rw [hnone] at hx
          cases hx
        rw [htop] at hx
        cases hx
        exact absurd (hholds.symm.trans hxholds) (by decide)
    · have hhead : (s.port.context s.port.running).stack.head? = some a := by rw [htop]; rfl
      refine .inr ⟨⟨hexclusive, hbatch.2 ⟨_, a, hhead, hholds⟩, howner _ a hhead hholds⟩, a, l, htop, hholds, ?_⟩
      rcases (orderlyStack_cons_iff a l).1 horderly with ⟨hentry, -⟩ | ⟨-, -, hl, -⟩
      · rw [Activation.not_holdsBatch_of_isEntry hentry] at hholds
        cases hholds
      · exact hl

/-! ### What the operations do to the situations -/

theorem Exclusive.of_sameControl (h : s.Exclusive) (hst : s.SameControl t) : t.Exclusive where
  fault := hst.fault.trans h.fault
  schedule := hst.schedule ▸ h.schedule
  others := hst.others ▸ h.others
  otherIdle := by rw [hst.ctx, hst.contextStack]; exact h.otherIdle
  guard := hst.rxBusy.trans h.guard
  rejectedM := hst.tx ▸ h.rejectedM
  rejectedI := hst.tx ▸ h.rejectedI
  receiver := hst.receiver h.receiver

theorem Resting.of_sameControl (h : s.Resting) (hst : s.SameControl t) : t.Resting :=
  ⟨h.toExclusive.of_sameControl hst, hst.stack ▸ h.stack, hst.tx ▸ h.batch⟩

theorem Owning.of_sameControl (h : s.Owning) (hst : s.SameControl t) : t.Owning :=
  ⟨h.toExclusive.of_sameControl hst, hst.tx ▸ h.batch, by rw [hst.tx, hst.ctx]; exact h.owner⟩

theorem Sending.of_sameControl (h : s.Sending) (hst : s.SameControl t) : t.Sending :=
  ⟨h.toOwning.of_sameControl hst, hst.stack ▸ h.stack⟩

/-- What is not on the control keeps a machine orderly. -/
theorem Orderly.of_sameControl (h : s.Orderly) (hst : s.SameControl t) : t.Orderly := by
  obtain ⟨hfault, hschedule, ⟨hone, hguard, hstack, hbatch, howner, hrejM, hrejI, hreceiver⟩, hothers⟩ := h
  refine ⟨hst.fault.trans hfault, hst.schedule ▸ hschedule, ⟨?_, ?_, ?_, ?_, ?_, ?_, ?_, hst.receiver hreceiver⟩,
    hst.others ▸ hothers⟩ <;> simp only [hst.stackM, hst.stackI, hst.rxBusy, hst.contextStack, hst.tx]
  all_goals assumption

theorem Exclusive.setStack (h : s.Exclusive) (l : List Activation) : (s.setStack l).Exclusive :=
  { h with otherIdle := by rw [setStack_ctx, setStack_other]; exact h.otherIdle }

theorem Resting.setStack (h : s.Resting) {l : List Activation} (hl : restingStack l) : (s.setStack l).Resting :=
  ⟨h.toExclusive.setStack l, by rwa [setStack_stack], h.batch⟩

theorem Owning.setStack (h : s.Owning) (l : List Activation) : (s.setStack l).Owning :=
  ⟨h.toExclusive.setStack l, h.batch, h.owner⟩

theorem Owning.sending_setStack (h : s.Owning) {a : Activation} {l : List Activation} (ha : a.holdsBatch = true)
    (hl : restingStack l) : (s.setStack (a :: l)).Sending :=
  ⟨h.setStack _, a, l, setStack_stack .., ha, hl⟩

/-- The executing context enters an inner operation outside the transport's parser. -/
theorem Resting.push (h : s.Resting) {a : Activation} (hinner : a.isInner = true) (hframe : a.frameOk = true)
    (hbatch : a.holdsBatch = false) (htransport : a.inTransport = false) : (s.push a).Resting :=
  h.setStack (h.stack.cons hinner hframe hbatch htransport)

/-- It leaves one, and all that only waited for it (R408). -/
theorem Resting.leave (h : s.Resting) {a : Activation} {l : List Activation} (hstack : s.stack = a :: l)
    (ha : a.isEntry = false) : s.leave.Resting := by
  have hl : restingStack l := (hstack ▸ h.stack).tail_of_inner ha
  rw [leave_eq, hstack]
  exact h.setStack hl.dropWhile

theorem Resting.unwind (h : s.Resting) : s.unwind.Resting := h.setStack h.stack.dropWhile

/-- It enters its entry on an idle port, the guard taken. -/
theorem Idle.start (h : s.Idle) {a : Activation} (ha : a.isEntry = true) : ((s.setRxBusy true).push a).Resting := by
  have hexclusive : (s.setRxBusy true).Exclusive :=
    ⟨h.fault, h.schedule, h.others, h.idle _, rfl, h.rejectedM, h.rejectedI, h.receiver⟩
  have hempty : (s.setRxBusy true).stack = [] := h.idle s.ctx
  refine ⟨hexclusive.setStack _, ?_, h.batch⟩
  rw [push_eq, setStack_stack, hempty]
  exact restingStack_entry ha

/-- It enters a poll or housekeeping from its entry, where no other one is active. -/
theorem Resting.pushTransport (h : s.Resting) {e a : Activation} (hstack : s.stack = [e]) (he : e.isEntry = true)
    (ha : a = .housekeeping ∨ ∃ b, a = .poll b) : (s.push a).Resting := by
  refine h.setStack ((restingStack_cons_iff _ _).2 ?_)
  have hnone : ∀ x ∈ s.stack, x.inTransport = false := by
    rw [hstack]
    exact fun x hx => List.mem_singleton.1 hx ▸ Activation.not_inTransport_of_isEntry he
  rcases ha with rfl | ⟨b, rfl⟩ <;> exact ⟨rfl, .inr ⟨rfl, rfl, h.stack, fun _ => hnone⟩⟩

/-- With one activation inside the transport's parser on top, there is no other (R285). -/
theorem Resting.not_reentered (h : s.Resting) {a : Activation} {l : List Activation} (hstack : s.stack = a :: l)
    (ha : a.inTransport = true) : s.reentered = false := by
  obtain ⟨-, ⟨hentry, -⟩ | ⟨-, -, -, hnone⟩⟩ := (restingStack_cons_iff a l).1 (hstack ▸ h.stack)
  · rw [Activation.not_inTransport_of_isEntry hentry] at ha
    cases ha
  · simp only [reentered, hstack, h.otherIdle, List.tail_cons, List.any_nil, Bool.or_false, List.any_eq_false]
    exact fun x hx => by simp [hnone ha x hx]

/-! ### Replies, handlers and the reset -/

theorem Resting.transportSend (h : s.Resting) (id : FrameId) (p : List Byte) (mode : SendMode) :
    (s.transportSend id p mode).Resting := by
  unfold State.transportSend
  split
  · exact (h.of_sameControl (sameControl_setTransport
      (x := { s.port.transport with relQueue := s.port.transport.relQueue ++ [⟨id, p⟩] }) (·))).push rfl rfl rfl rfl
  · exact h.push rfl rfl rfl rfl

theorem Resting.sendReply (h : s.Resting) (id : FrameId) (p : List Byte) (mode : SendMode) :
    (s.sendReply id p mode).Resting :=
  (h.push (a := .awaiting .reply) rfl rfl rfl rfl).transportSend id p mode

theorem reset_port_orderly (p : Config.Params) (n k : Nat) (sent : List Byte) : (Port.reset p n k sent).orderly := by
  have hstacks : ∀ c, ((Port.reset p n k sent).context c).stack = [] := fun c => by cases c <;> rfl
  refine ⟨.inl rfl, ⟨fun h => (nomatch h), fun h => ?_⟩, fun c hc => absurd (hstacks c) hc,
    ⟨fun h => (nomatch h), ?_⟩, fun c a ha => ?_, rfl, rfl, minCodec.init_ok⟩
  · exact (h.elim (· rfl) (· rfl)).elim
  · rintro ⟨c, a, ha, -⟩
    rw [hstacks c] at ha
    cases ha
  · rw [hstacks c] at ha
    cases ha

/-- A system reset makes the ports orderly; it writes neither fault nor schedule (R441). -/
theorem systemReset_orderly (hfault : s.fault = none) (hschedule : s.schedule.all Event.orderly = true) :
    (systemReset s).Orderly := by
  refine ⟨systemReset_fault.trans hfault, by rwa [systemReset_schedule], ?_, fun q hq => ?_⟩
  · rw [systemReset_port]
    exact reset_port_orderly ..
  · rw [systemReset_others] at hq
    obtain ⟨k, sent, rfl⟩ := mem_resetAll hq
    exact reset_port_orderly ..

/-- Whatever a handler does, the machine is orderly after it. -/
theorem Handled.orderly (h : s.Handled t) (hs : s.Resting) : t.Orderly := by
  cases h with
  | reply id p mode hv => exact ((hs.of_sameControl hv).sendReply id p mode).orderly
  | replyOver id p mode ha =>
    rcases ha with rfl | ⟨k, total, rfl⟩
    · exact ((hs.push rfl rfl rfl rfl).sendReply id p mode).orderly
    · exact ((hs.push rfl rfl rfl rfl).sendReply id p mode).orderly
  | reset hv => exact systemReset_orderly (hv.fault.trans hs.fault) (hv.schedule ▸ hs.schedule)

/-! ### The steps of a resting context -/

/-- The drain loop of an entry: on an empty ring the guard is released and the context is idle again (R186, R190). -/
theorem Resting.stepDrain_orderly (h : s.Resting) {e : Activation} (hstack : s.stack = [e]) (he : e.isEntry = true) :
    s.stepDrain.Orderly := by
  rcases stepDrain_cases (s := s) with ⟨-, e'⟩ | ⟨-, e'⟩ <;> rw [e']
  · have hidle : ∀ c, ((s.setStack []).port.context c).stack = [] := fun c => by
      by_cases hc : c = s.ctx
      · rw [hc]
        exact setStack_stack s []
      · exact (h.toExclusive.setStack []).stack_of_ne hc
    have hleave : (s.setRxBusy false).leave = (s.setRxBusy false).setStack [] := by
      rw [leave_eq, setRxBusy_stack, hstack]
      rfl
    rw [hleave]
    exact Idle.orderly ⟨h.fault, h.schedule, h.others, hidle, rfl, h.batch, h.rejectedM, h.rejectedI, h.receiver⟩
  · exact ((h.of_sameControl (sameControl_setRx ring_get_ok)).pushTransport hstack he (.inr ⟨_, rfl⟩)).orderly

/-- A step that only puts another entry phase in the entry's place. -/
theorem Resting.replaceEntry (h : s.Resting) {e e' : Activation} (hstack : s.stack = [e]) (he' : e'.isEntry = true) :
    (s.replaceTop e').Resting := by
  rw [replaceTop_eq, hstack]
  exact h.setStack (restingStack_entry he')

theorem Resting.stepDecide (h : s.Resting) (hstack : s.stack = [.tick .decide]) : s.stepDecide.Resting := by
  unfold State.stepDecide
  simp only
  split
  · exact (h.of_sameControl (sameControl_setStream
      (x := { s.port.stream with lastEmitTick := s.nowMs, counter := s.port.stream.counter + 1 }) (·))).replaceEntry
      hstack rfl
  · exact h.replaceEntry hstack rfl

theorem Resting.stepEmit (h : s.Resting) {k now : U32} (hstack : s.stack = [.tick (.emit k now)]) :
    (s.stepEmit k now).Resting := (h.replaceEntry hstack rfl).transportSend ..

/-- The bytes of a delivered frame are a frame, whatever its payload: its length byte never exceeds it. -/
theorem frameOk_frameBytes (id : FrameId) (p : List Byte) : (Activation.dispatch (frameBytes id p)).frameOk = true := by
  have hunsequenced : (idByte id).getLsbD 7 = false := by simp [idByte]
  have hlength : ¬ p.length < (BitVec.ofNat 8 p.length).toNat := by
    rw [BitVec.toNat_ofNat]
    exact Nat.not_lt.2 (Nat.mod_le _ _)
  simp only [Activation.frameOk, frameBytes, decode, hunsequenced, Bool.false_eq_true, if_false, hlength]
  rfl

/-- A poll consumes its byte and returns, or hands on the frame it completes (R270, R283). -/
theorem Resting.stepPoll (h : s.Resting) {b : Byte} {l : List Activation} (hstack : s.stack = .poll b :: l) :
    (s.stepPoll b).Resting := by
  have hreceive := h.of_sameControl (sameControl_receive (s := s) b)
  unfold State.stepPoll
  rw [h.not_reentered hstack rfl, if_neg Bool.false_ne_true]
  split <;> rename_i t d e <;> rw [e] at hreceive
  · exact hreceive.leave hstack rfl
  · have hpoll : restingStack (.poll b :: l) := hstack ▸ h.stack
    have hstack' : restingStack (.delivered :: l) :=
      (restingStack_cons_iff .delivered l).2 ((restingStack_cons_iff (.poll b) l).1 hpoll)
    have hdelivered : ((s.setTransport t).replaceTop .delivered).Resting := by
      rw [replaceTop_eq, setTransport_stack, hstack]
      exact hreceive.setStack hstack'
    have haccept := hdelivered.of_sameControl (sameControl_acceptDelivery d)
    split <;> rename_i e' <;> rw [e'] at haccept
    · exact haccept.push rfl (frameOk_frameBytes ..) rfl rfl
    · exact haccept

theorem Resting.stepDelivered (h : s.Resting) {l : List Activation} (hstack : s.stack = .delivered :: l) :
    s.stepDelivered.Resting :=
  (h.of_sameControl (sameControl_setTransport (delivered_ok _ _))).leave hstack rfl

theorem Resting.stepHousekeeping (h : s.Resting) {l : List Activation} (hstack : s.stack = .housekeeping :: l) :
    s.stepHousekeeping.Resting := by
  unfold State.stepHousekeeping
  rw [h.not_reentered hstack rfl, if_neg Bool.false_ne_true]
  exact h.leave hstack rfl

/-- The space test drops the frame or goes on to `begin_send` (R275). -/
theorem Resting.spaceTest (h : s.Resting) {f : TxFrame} {l : List Activation}
    (hstack : s.stack = .transmit (.spaceTest f) :: l) : (s.stepTransmit (.spaceTest f)).Resting := by
  simp only [stepTransmit]
  split
  · exact h.leave hstack rfl
  · rw [replaceTop_eq, hstack]
    exact h.setStack (((hstack ▸ h.stack).tail_of_inner rfl).cons rfl rfl rfl rfl)

/-- With no batch in flight `begin_send` is OK, and the executing context sends as the owner (R171). -/
theorem Resting.beginBatch (h : s.Resting) {f : TxFrame} {l : List Activation}
    (hstack : s.stack = .transmit (.beginBatch f) :: l) : (s.stepTransmit (.beginBatch f)).Sending := by
  rcases beginBatch_cases (s := s) with ⟨hbusy, -⟩ | ⟨-, e⟩
  · rw [h.batch] at hbusy
    cases hbusy
  · have hexclusive : (s.setTx { s.port.tx with buf := [], inProgress := true, owner := some s.ctx }).Exclusive :=
      { h.toExclusive with }
    have hl := (hstack ▸ h.stack).tail_of_inner rfl
    simp only [stepTransmit, e]
    rw [replaceTop_eq, setTx_stack, hstack]
    exact Owning.sending_setStack ⟨hexclusive, rfl, rfl⟩ rfl hl

/-! ### The steps of a sending context -/

/-- The owner that nobody rejected is not foreign to its batch (R173, R175). -/
theorem Owning.not_foreign (h : s.Owning) : s.port.tx.foreign s.ctx = false := by
  refine (foreign_eq_false_iff _ _).2 ⟨h.owner, ?_⟩
  cases s.ctx
  · exact h.rejectedM
  · exact h.rejectedI

/-- What stands below the activation that drives the batch. -/
theorem Sending.tail (h : s.Sending) : restingStack s.stack.tail := by
  obtain ⟨a, l, hstack, -, hl⟩ := h.stack
  rw [hstack]
  exact hl

theorem Sending.replaceTop (h : s.Sending) {a : Activation} (ha : a.holdsBatch = true) : (s.replaceTop a).Sending :=
  h.sending_setStack ha h.tail

/-- An activation that drives a batch is not one that only waits. -/
theorem Sending.unwind (h : s.Sending) : s.unwind = s := by
  obtain ⟨a, l, hstack, ha, -⟩ := h.stack
  have hbusy : a.isAwaiting = false := by cases a <;> simp_all [Activation.holdsBatch, Activation.isAwaiting]
  rw [unwind_eq, hstack, List.dropWhile_cons_of_neg (by simp [hbusy]), ← hstack, setStack_self]

/-- The owner's byte is stored or dropped, and the batch stays its own (R173). -/
theorem Sending.appendToBatch (h : s.Sending) (b : Byte) : (s.appendToBatch b).Sending := by
  rcases appendToBatch_cases (s := s) b with ⟨-, e⟩ | ⟨-, hforeign, -⟩ | ⟨-, -, -, e⟩ | ⟨-, -, -, e⟩
  · rwa [e]
  · rw [h.not_foreign] at hforeign
    cases hforeign
  · rwa [e]
  · rw [e]
    exact { h with }

/-- The end of the transmit phase: the guard is the context's own, so the call returns to it (R176, R177). -/
theorem Owning.finishBatch (h : s.Owning) :
    ∃ u, s.finishBatch = (u, false) ∧ u.Exclusive ∧ u.stack = s.stack ∧ u.port.tx.inProgress = false := by
  refine ⟨s.setTx { s.port.tx with inProgress := false, owner := none, rejectedM := false, rejectedI := false },
    by rw [finishBatch_eq, h.guard]; rfl, ?_, rfl, rfl⟩
  exact { h.toExclusive with rejectedM := rfl, rejectedI := rfl }

/-- A wait iteration for TXE keeps the batch in flight (R176). -/
theorem Sending.stepTxByte (h : s.Sending) (i : Nat) : (s.stepTxByte i).Sending := by
  have hcapture := h.of_sameControl sameControl_rxCapture
  unfold State.stepTxByte
  simp only
  split
  · refine (hcapture.of_sameControl (sameControl_uartWrite _)).replaceTop ?_
    split <;> rfl
  · exact hcapture

/-- A wait iteration for TC keeps the batch in flight or ends it (R176, R177). -/
theorem Sending.stepTxTc_orderly (h : s.Sending) : s.stepTxTc.Orderly := by
  have hcapture := h.of_sameControl sameControl_rxCapture
  unfold State.stepTxTc
  simp only
  split
  · obtain ⟨u, e, hu, hstack, hbatch⟩ := hcapture.finishBatch
    have hrest : restingStack (u.stack.tail.dropWhile Activation.isAwaiting) := by
      rw [hstack]
      exact hcapture.tail.dropWhile
    have hleave : u.leave.Resting := ⟨hu.setStack _, (setStack_stack u _).symm ▸ hrest, hbatch⟩
    rw [e]
    exact hleave.orderly
  · exact hcapture.orderly

/-- `end_send` of the owner whose guard is held: an empty batch ends at once, another one is on its way (R175, R176). -/
theorem Owning.endSendEntry_cases (h : s.Owning) (hl : restingStack s.stack) :
    s.endSendEntry.Resting ∨ s.endSendEntry.Sending := by
  by_cases hbytes : s.port.tx.buf = []
  · obtain ⟨u, e, hu, hstack, hbatch⟩ := h.finishBatch
    have hentry : s.endSendEntry = u := by
      have hlen : s.port.tx.len = 0 := List.length_eq_zero_iff.2 hbytes
      simp [endSendEntry, h.batch, h.not_foreign, hlen, e]
    rw [hentry]
    exact .inl ⟨hu, hstack.symm ▸ hl, hbatch⟩
  · rw [endSendEntry_of_bytes h.batch h.not_foreign hbytes]
    exact .inr ((h.sending_setStack (a := .endSend (.txByte 0)) rfl hl).stepTxByte 0)

/-- The last byte is appended: `end_send` runs, the send waiting below it (R275). -/
theorem Sending.endSend_orderly (h : s.Sending) : (s.stepTransmit (.appendBytes [])).Orderly := by
  have hl : restingStack (s.replaceTop (.awaiting .send)).stack := by
    rw [replaceTop_eq, setStack_stack]
    exact h.tail.cons rfl rfl rfl rfl
  have howning : (s.replaceTop (.awaiting .send)).Owning := h.toOwning.setStack _
  simp only [stepTransmit]
  rcases howning.endSendEntry_cases hl with hrest | hsend
  · exact hrest.unwind.orderly
  · rw [hsend.unwind]
    exact hsend.orderly

/-! ### The running context's step -/

/-- A resting context's step, no `dispatch` pending on it. -/
theorem Resting.advance_orderly (h : s.Resting) (hdispatch : ∀ b l, s.stack ≠ .dispatch b :: l) :
    s.advance.Orderly := by
  cases hstack : s.stack with
  | nil => exact absurd (hstack ▸ h.stack) not_restingStack_nil
  | cons a l =>
    have htop : restingStack (a :: l) := hstack ▸ h.stack
    obtain ⟨hholds, hshape⟩ := (restingStack_cons_iff a l).1 htop
    unfold advance
    rw [hstack]
    cases ha : a.isEntry with
    | true =>
      obtain rfl : l = [] := by
        rcases hshape with ⟨-, hl⟩ | ⟨hinner, -⟩
        · exact hl
        · cases a <;> simp_all [Activation.isEntry, Activation.isInner]
      cases a with
      | feed => exact h.stepDrain_orderly hstack rfl
      | tick ph =>
        cases ph with
        | decide => exact (h.stepDecide hstack).orderly
        | emit k now => exact (h.stepEmit hstack).orderly
        | drain => exact h.stepDrain_orderly hstack rfl
      | _ => cases ha
    | false =>
      obtain ⟨hinner, hl⟩ : a.isInner = true ∧ restingStack l := by
        rcases hshape with ⟨hentry, -⟩ | ⟨hinner, -, hl, -⟩
        · exact absurd (ha.symm.trans hentry) (by decide)
        · exact ⟨hinner, hl⟩
      cases a with
      | poll b => exact (h.stepPoll hstack).orderly
      | delivered => exact (h.stepDelivered hstack).orderly
      | housekeeping => exact (h.stepHousekeeping hstack).orderly
      | dispatch b => exact absurd hstack (hdispatch b l)
      | transmit ph =>
        cases ph with
        | spaceTest f => exact (h.spaceTest hstack).orderly
        | beginBatch f => exact (h.beginBatch hstack).orderly
        | appendBytes rest => cases hholds
      | relSent => exact (h.leave hstack rfl).orderly
      | getConfig k total =>
        refine (handled_sendChunks k total).orderly ?_
        rw [popTop_eq, hstack]
        exact h.setStack hl
      | sysReset => exact systemReset_orderly h.fault h.schedule
      | awaiting op => exact h.unwind.orderly
      | endSend ph =>
        cases ph with
        | txByte | txTc => cases hholds
        | drain => cases hinner
      | feed | tick => cases ha
      | drain => cases hinner

/-- A sending context's step. -/
theorem Sending.advance_orderly (h : s.Sending) : s.advance.Orderly := by
  obtain ⟨a, l, hstack, hholds, -⟩ := h.stack
  unfold advance
  rw [hstack]
  cases a with
  | transmit ph =>
    cases ph with
    | spaceTest | beginBatch => cases hholds
    | appendBytes rest =>
      cases rest with
      | nil => exact h.endSend_orderly
      | cons b bs => exact ((h.appendToBatch b).replaceTop rfl).orderly
  | endSend ph =>
    cases ph with
    | txByte i => exact (h.stepTxByte i).orderly
    | txTc => exact h.stepTxTc_orderly
    | drain => cases hholds
  | _ => cases hholds

/-! ### Entries and acts of the environment -/

/-- With the guard free nothing is active on the port, whichever context starts. -/
theorem Orderly.idle_of_guard_free (h : s.Orderly) (hguard : s.port.rxBusy = false) (c : Ctx) : (s.setCtx c).Idle := by
  rcases h.running_cases with hidle | hrest | hsend
  · exact { hidle with }
  · exact absurd (hguard.symm.trans hrest.guard) (by decide)
  · exact absurd (hguard.symm.trans hsend.guard) (by decide)

theorem Idle.of_sameControl (h : s.Idle) (hst : s.SameControl t) : t.Idle where
  fault := hst.fault.trans h.fault
  schedule := hst.schedule ▸ h.schedule
  others := hst.others ▸ h.others
  idle c := (hst.contextStack c).trans (h.idle c)
  guard := hst.rxBusy.trans h.guard
  batch := hst.tx ▸ h.batch
  rejectedM := hst.tx ▸ h.rejectedM
  rejectedI := hst.tx ▸ h.rejectedI
  receiver := hst.receiver h.receiver

/-- An entry takes the free guard and enters a poll or housekeeping. -/
theorem Idle.startTransport (h : s.Idle) {e a : Activation} (he : e.isEntry = true)
    (ha : a = .housekeeping ∨ ∃ b, a = .poll b) : (((s.setRxBusy true).push e).push a).Resting := by
  refine (h.start he).pushTransport ?_ he ha
  have hempty : s.stack = [] := h.idle s.ctx
  rw [push_eq, setStack_stack, setRxBusy_stack, hempty]

/-- `feed`: it takes the free guard and polls, or defers the byte (R185). -/
theorem Orderly.feedEntry (h : s.Orderly) (b : Byte) : (s.feedEntry b).Orderly := by
  unfold State.feedEntry
  split
  · exact h.of_sameControl (sameControl_ringPut b)
  · rename_i hfree
    obtain ⟨-, hguard⟩ := Bool.or_eq_false_iff.1 (Bool.eq_false_iff.2 hfree)
    exact ((h.idle_of_guard_free hguard s.ctx).startTransport rfl (.inr ⟨b, rfl⟩)).orderly

/-- `tick`: it takes the free guard and enters housekeeping, or is skipped (R310). -/
theorem Orderly.tickEntry (h : s.Orderly) : s.tickEntry.Orderly := by
  unfold State.tickEntry
  split
  · exact h.of_sameControl (sameControl_setRet _)
  · rename_i hfree
    have hidle := (h.idle_of_guard_free (Bool.eq_false_iff.2 hfree) s.ctx).of_sameControl (sameControl_setRet .nothing)
    exact (hidle.startTransport (e := .tick .decide) rfl (.inl rfl)).orderly

/-- The OPEN layer starts a transmission inside a busy context that has no batch in flight (R272). -/
theorem Orderly.relTransmit (h : s.Orderly) (k : Nat) (seq : Byte) :
    ((s.setCtx s.port.running).relTransmit k seq).Orderly := by
  rcases relTransmit_cases k seq (s.setCtx s.port.running) with e | ⟨f, -, -, hchance, hfree, e⟩ <;> rw [e]
  · exact h
  · rcases h.running_cases with hidle | hrest | hsend
    · have hempty : (s.setCtx s.port.running).stack = [] := hidle.idle _
      rw [hempty] at hchance
      cases hchance
    · exact (hrest.push rfl rfl rfl rfl).orderly
    · obtain ⟨a, l, hstack, hholds, -⟩ := hsend.stack
      rw [hstack, List.all_cons, hholds] at hfree
      cases hfree

/-- The choice of another port only swaps two orderly ports (R412). -/
theorem Orderly.selectPort (h : s.Orderly) (k : Nat) : (s.selectPort k).Orderly := by
  obtain ⟨hfault, hschedule, hport, hothers⟩ := h
  unfold State.selectPort
  split
  · rename_i p hp
    refine ⟨hfault, hschedule, hothers p (List.mem_of_getElem? hp), fun q hq => ?_⟩
    rcases List.mem_or_eq_of_mem_set hq with hq | rfl
    · exact hothers q hq
    · exact hport
  · exact ⟨hfault, hschedule, hport, hothers⟩

/-- Every act of the environment. -/
theorem Orderly.act (h : s.Orderly) (e : Event) : (s.act e).Orderly := by
  rcases act_cases e s with hsame | ⟨v, hv, heq⟩ | ⟨k, seq, heq⟩ | ⟨k, rfl⟩
  · exact h.of_sameControl hsame
  · rw [heq]
    exact systemReset_orderly (hv.fault.trans h.1) (hv.schedule ▸ h.2.1)
  · rw [heq]
    exact h.relTransmit k seq
  · exact h.selectPort k

/-- What the schedule holds after its first event is as orderly. -/
theorem Orderly.setSchedule (h : s.Orderly) {e : Event} {rest : List Event} (hsched : s.schedule = e :: rest) :
    e.orderly = true ∧ (s.setSchedule rest).Orderly := by
  obtain ⟨hfault, hschedule, hport, hothers⟩ := h
  rw [hsched, List.all_cons, Bool.and_eq_true] at hschedule
  exact ⟨hschedule.1, hfault, hschedule.2, hport, hothers⟩

end State

/-! ### The step -/

/-- A choice between frame instructions is one. -/
theorem isFrame_ite {c : Prop} [Decidable c] {i j : Instr} {r : FrameId} (hi : (i.frame? r).isSome = true)
    (hj : (j.frame? r).isSome = true) : ((if c then i else j).frame? r).isSome = true := by
  split
  · exact hi
  · exact hj

/-- Each arm of the decoder is a frame instruction (R101 to R105). -/
theorem decodeId_isFrame (r id : FrameId) (p : List Byte) : ((decodeId r id p).frame? r).isSome = true := by
  unfold decodeId
  iterate 22 refine isFrame_ite rfl ?_
  rfl

/-- Whether bytes are a frame does not depend on `ID_RESET`: a frame is fetched, as a frame instruction. -/
theorem fetch_of_frameOk {bytes : List Byte} (h : (Activation.dispatch bytes).frameOk = true) (s : State) :
    ∃ i f, s.fetch bytes = .ok i ∧ i.frame? s.params.idReset = some f := by
  match bytes with
  | [] => cases h
  | [_] => cases h
  | idc :: len :: rest =>
    simp only [Activation.frameOk, decode] at h
    split at h
    · cases h
    split at h
    · cases h
    rename_i hunsequenced hlength
    obtain ⟨f, hf⟩ := Option.isSome_iff_exists.1
      (decodeId_isFrame s.params.idReset (idOf idc) (rest.take len.toNat))
    refine ⟨_, f, State.fetch_of_decode (tail := rest.drop len.toNat) ?_, hf⟩
    simp only [decode, if_neg hunsequenced, if_neg hlength]

/-- A called instruction that is well-formed is run. -/
theorem step_of_nextMove_call {s t : State} {i : Instr} (hfault : s.fault = none) (hmove : s.nextMove = .call i t)
    (haccepts : t.accepts i = true) : step s = exec i t := by
  simp only [step, hfault, hmove, haccepts, if_true]

/-- The running context's pending frame is a frame, and its handler leaves the machine orderly (R220). -/
theorem State.Resting.dispatch_orderly {s : State} (h : s.Resting) {b : List Byte} {l : List Activation}
    (hstack : s.stack = .dispatch b :: l) :
    ∃ i t, (s.replaceTop (.awaiting .dispatch)).fetch b = .ok i ∧
      exec i (s.replaceTop (.awaiting .dispatch)) = .next t ∧ t.Orderly := by
  obtain ⟨-, ⟨hentry, -⟩ | ⟨-, hframe, hl, -⟩⟩ := (restingStack_cons_iff _ _).1 (hstack ▸ h.stack)
  · cases hentry
  · have hrest : (s.replaceTop (.awaiting .dispatch)).Resting := by
      rw [State.replaceTop_eq, hstack]
      exact h.setStack (hl.cons rfl rfl rfl rfl)
    obtain ⟨i, f, hfetch, hf⟩ := fetch_of_frameOk hframe (s.replaceTop (.awaiting .dispatch))
    obtain ⟨t, hexec, ht⟩ := exec_frame_handled hf (s.replaceTop (.awaiting .dispatch))
    exact ⟨i, t, hfetch, hexec, ht.orderly hrest⟩

/-- The step in which the running context moves. -/
theorem step_orderly_of_runMove {s u : State} (hfault : s.fault = none) (hu : u.Orderly)
    (hmove : s.nextMove = u.runMove) : ∃ t, step s = .next t ∧ t.Orderly := by
  rcases runMove_cases u with ⟨b, l, hstack, e⟩ | ⟨hnone, e⟩ <;> rw [State.enter_eq] at * <;> rw [e] at hmove
  · rcases hu.running_cases with hidle | hrest | hsend
    · have hempty : (u.setCtx u.port.running).stack = [] := hidle.idle _
      rw [hempty] at hstack
      cases hstack
    · obtain ⟨i, t, hfetch, hexec, ht⟩ := hrest.dispatch_orderly hstack
      exact ⟨t, (step_of_nextMove_frame hfault hmove hfetch).trans hexec, ht⟩
    · obtain ⟨a, l', hstack', hholds, -⟩ := hsend.stack
      obtain ⟨rfl, -⟩ := List.cons_eq_cons.1 (hstack.symm.trans hstack')
      cases hholds
  · have hadvance : (u.setCtx u.port.running).advance.Orderly := by
      rcases hu.running_cases with hidle | hrest | hsend
      · have hempty : (u.setCtx u.port.running).stack = [] := hidle.idle _
        unfold State.advance
        rw [hempty]
        exact hu
      · exact hrest.advance_orderly hnone
      · exact hsend.advance_orderly
    refine ⟨_, ?_, hadvance⟩
    simp only [step, hfault, hmove]
    exact State.settle_of_none hadvance.1

/-- The step in which an entry starts: the block's own are `feed` and `tick` (R80, R405). -/
theorem step_orderly_of_call {s u : State} {c : Ctx} {i : Instr} (hfault : s.fault = none) (hu : u.Orderly)
    (hentry : (Event.call c i).orderly = true) (hmove : s.nextMove = .call i (u.enter c)) :
    ∃ t, step s = .next t ∧ t.Orderly := by
  have hentered : (u.enter c).Orderly := hu
  cases i with
  | feed b => exact ⟨_, step_of_nextMove_call hfault hmove rfl, hentered.feedEntry b⟩
  | tick => exact ⟨_, step_of_nextMove_call hfault hmove rfl, hentered.tickEntry⟩
  | _ => cases hentry

theorem step_of_nextMove_env {s t : State} (hfault : s.fault = none) (hmove : s.nextMove = .env t) :
    step s = .next t := by
  simp only [step, hfault, hmove]

/-- Settles O11: whatever moves next, the running context, an entry or the environment, finds the machine idle, resting or
sending, and leaves it so. -/
theorem orderlyNeverFaults : Obligations.OrderlyNeverFaults := by
  intro s h
  have hfault := h.1
  rcases nextMove_cases s with hmove | ⟨rest, hsched, hmove⟩ | ⟨c, i, rest, hsched, -, hmove⟩ |
    ⟨c, b, rest, hsched, -, hmove⟩ | ⟨c, rest, hsched, -, hmove⟩ | ⟨e, rest, hsched, -, hmove⟩
  · exact step_orderly_of_runMove hfault h hmove
  · exact step_orderly_of_runMove hfault (h.setSchedule hsched).2 hmove
  · obtain ⟨hentry, hrest⟩ := h.setSchedule hsched
    exact step_orderly_of_call hfault hrest hentry hmove
  · cases (h.setSchedule hsched).1
  · have hrest := (h.setSchedule hsched).2
    rcases rxMove_cases (s.setSchedule rest) c with ⟨-, e⟩ | ⟨-, e⟩ <;> rw [e] at hmove
    · exact step_orderly_of_call (c := c) hfault (u := (s.setSchedule rest).setUart _)
        (hrest.of_sameControl (State.sameControl_setUart _)) rfl hmove
    · exact ⟨_, step_of_nextMove_env hfault hmove, hrest⟩
  · exact ⟨_, step_of_nextMove_env hfault hmove, (h.setSchedule hsched).2.act e⟩

end Sys2Proof.Machine

/-! ## What a saved record reads as

The program loop on a healthy flash writes the record's bytes, and a sector that holds a record's bytes is one that
`Store.load` trusts. -/

namespace Sys2Proof.Machine

/-! ### Bytes written and read back -/

/-- Bytes read inside a run of writes are that part of the run. -/
theorem Memory.readBytes_writeBytes {d : Byte} {m : List Host.Cell} (h : wf d m = true) (l : List Byte) (a k n : Nat)
    (hfit : k + n ≤ l.length) : readBytes d (writeBytes d m a l) (a + k) n = (l.drop k).take n := by
  refine List.ext_getElem (by simp only [length_readBytes, List.length_take, List.length_drop]; omega) fun j hj _ => ?_
  rw [length_readBytes] at hj
  simp only [readBytes, List.getElem_map, List.getElem_range, List.getElem_take, List.getElem_drop]
  rw [read_writeBytes _ _ _ h, if_pos (by omega), show a + k + j - a = k + j by omega,
    List.getD_eq_getElem _ _ (by omega)]

/-! ### The record's fields -/

/-- The two bytes of `u16le` are the value's remainder and quotient modulo 256 (R11, R72). -/
theorem u16le_eq (v : U16) : u16le v = [BitVec.ofNat 8 v.toNat, BitVec.ofNat 8 (v.toNat / 256)] := by
  simp only [u16le, BitVec.extractLsb', Nat.shiftRight_eq_div_pow]
  simp

/-- `rd16le` reads back what `u16le` wrote (R11). -/
theorem rd16le_u16le (v : U16) : rd16le (u16le v) 0 = v := by
  refine BitVec.eq_of_getLsbD_eq fun i hi => ?_
  simp only [rd16le, u16le, byteAt]
  interval_cases i <;> simp

/-- The header: the magic bytes, the size and the CRC, little-endian (R72, R331). -/
theorem recordHeader_eq (blob : List Byte) :
    recordHeader blob = [0x46, 0x4E, 0x4F, 0x43] ++ (u16le (BitVec.ofNat 16 blob.length) ++ u16le (crc16 blob)) :=
  List.append_assoc _ _ _

namespace State

variable {s : State}

/-- Where the flash holds a record's bytes, `Store.load` trusts the record and finds its blob (R334, R337). -/
theorem storedBlob_of_recordBytes {blob : List Byte} (hpos : 0 < blob.length) (hcap : blob.length ≤ Config.blobCap)
    (hheader : s.flashBytes s.params.recordAddr 8 = recordHeader blob)
    (hdata : s.flashBytes (s.params.recordAddr + 8) blob.length = blob) : s.storedBlob = some blob := by
  have hsize : (rd16le (recordHeader blob) 4).toNat = blob.length := by
    have hfield : rd16le (recordHeader blob) 4 = BitVec.ofNat 16 blob.length := rd16le_u16le _
    rw [hfield, BitVec.toNat_ofNat, Nat.mod_eq_of_lt (by simp only [Config.blobCap] at hcap; omega)]
  have hcrc : rd16le (recordHeader blob) 6 = crc16 blob := rd16le_u16le _
  have hmagic : rd32le (recordHeader blob) 0 = recordMagic :=
    show rd32le (u32le recordMagic) 0 = recordMagic by decide
  unfold storedBlob
  simp only [hheader, hmagic, hsize, hdata, hcrc, ne_eq, not_true_eq_false, false_or, if_true]
  exact if_neg (by omega)

/-! ### The program loop and the save -/

/-- A program call that succeeds writes its word and draws one free value (R330). -/
theorem programWord_of_ok {a : Nat} {w : List Byte} {ps : List Bool} (hscript : s.flash.programScript = true :: ps) :
    s.programWord a w =
      ((s.setFlash { s.flash with
          cells := Memory.writeBytes s.params.flashErased s.flash.cells a w, programScript := ps }).setFresh
        (s.fresh + 1), true) := by
  simp only [programWord, nextProgram, hscript, List.tail_cons, if_true]

/-- With every program call scripted to succeed the loop writes all its words (R333). -/
theorem programWords_of_ok {n a : Nat} {l : List Byte} {ps : List Bool} (hlength : l.length = 4 * n)
    (hscript : s.flash.programScript = List.replicate n true ++ ps) :
    State.programWords a l s =
      ((s.setFlash { s.flash with
          cells := Memory.writeBytes s.params.flashErased s.flash.cells a l, programScript := ps }).setFresh
        (s.fresh + n), true) := by
  induction n generalizing a l s with
  | zero =>
    obtain rfl := List.length_eq_zero_iff.1 hlength
    obtain rfl : s.flash.programScript = ps := hscript
    rfl
  | succ n ih =>
    match l, hlength with
    | b0 :: b1 :: b2 :: b3 :: rest, hlength =>
      rw [State.programWords, programWord_of_ok (ps := List.replicate n true ++ ps) hscript]
      simp only
      rw [ih (by simp only [List.length_cons] at hlength; omega) rfl]
      simp only [setFresh_fresh, Nat.add_assoc, Nat.add_comm 1 n]
      rfl

/-- An erase scripted to succeed, between its two watchdog refreshes (R330, R333). -/
theorem guardedErase_of_done {es : List Config.EraseOutcome} (hscript : s.flash.eraseScript = .done :: es) :
    s.guardedErase =
      (((s.setFlash { s.flash with
          cells := Memory.erase s.flash.cells s.params.sectorBase s.params.sectorSize, eraseScript := es }).setFresh
        (s.fresh + 1)).setWdt 0, some true) := by
  have hnext : s.wdtRefresh.nextErase = .done := by
    show s.nextErase = .done
    simp only [nextErase, hscript]
  simp only [guardedErase, eraseSector, hnext]
  simp only [wdtRefresh, setWdt_flash, hscript]
  rfl

/-- The sector's cells after a save on a healthy flash: erased, then the record programmed (R331, R333). -/
def savedCells (s : State) : List Host.Cell :=
  Memory.writeBytes s.params.flashErased (Memory.erase s.flash.cells s.params.sectorBase s.params.sectorSize)
    s.params.recordAddr (recordBytes s.params.flashPad s.blob)

/-- `Store.save` of a blob that fits, on a healthy flash: the cells, the scripts, the free draws and the watchdog move,
nothing else (R332, R333). -/
theorem storeSave_of_healthy {es : List Config.EraseOutcome} {ps : List Bool} (hpos : 0 < s.blob.length)
    (hcap : s.blob.length ≤ Config.blobCap) (herase : s.flash.eraseScript = .done :: es)
    (hprogram : s.flash.programScript = List.replicate (2 + (s.blob.length + 3) / 4) true ++ ps) :
    s.storeSave =
      (((s.setFlash { cells := s.savedCells, eraseScript := es, programScript := ps }).setFresh
        (s.fresh + 1 + (2 + (s.blob.length + 3) / 4))).setWdt 0, some true) := by
  have hloop := programWords_of_ok (s := ((s.setFlash { s.flash with
      cells := Memory.erase s.flash.cells s.params.sectorBase s.params.sectorSize, eraseScript := es }).setFresh
    (s.fresh + 1)).setWdt 0) (a := s.params.recordAddr) (l := recordBytes s.params.flashPad s.blob) (ps := ps)
    (by rw [length_recordBytes]; omega) hprogram
  unfold storeSave
  rw [if_neg (by omega), guardedErase_of_done herase]
  exact congrArg (fun r : State × Bool => (r.1, some r.2)) hloop

/-- Bytes read inside the record of a state with the saved cells. -/
theorem flashBytes_savedCells {u : State} (hwf : Memory.wf s.params.flashErased s.flash.cells = true)
    (hparams : u.params = s.params) (hcells : u.flash.cells = s.savedCells) (k n : Nat)
    (hfit : k + n ≤ (recordBytes s.params.flashPad s.blob).length) :
    u.flashBytes (s.params.recordAddr + k) n = ((recordBytes s.params.flashPad s.blob).drop k).take n := by
  unfold flashBytes
  rw [hparams, hcells]
  exact Memory.readBytes_writeBytes (Memory.wf_erase _ _ hwf) _ _ _ _ hfit

end State

/-- Settles O50: the save leaves the record's bytes behind the record address, and a load from them finds the blob. -/
theorem saveConfigRoundTrip : Obligations.SaveConfigRoundTrip := by
  intro s p es ps hpos hcap hflash herase hprogram
  have hsave := State.storeSave_of_healthy hpos hcap herase hprogram
  generalize hu : ((s.setFlash { cells := s.savedCells, eraseScript := es, programScript := ps }).setFresh
    (s.fresh + 1 + (2 + (s.blob.length + 3) / 4))).setWdt 0 = u at hsave
  have hparams : u.params = s.params := hu ▸ rfl
  have hread := State.flashBytes_savedCells (u := u) hflash.1 hparams (hu ▸ rfl)
  have hlength := length_recordBytes s.params.flashPad s.blob
  have hheader : u.flashBytes s.params.recordAddr 8 = recordHeader s.blob := hread 0 8 (by omega)
  have hdata : u.flashBytes (s.params.recordAddr + 8) s.blob.length = s.blob := by
    refine (hread 8 s.blob.length (by omega)).trans ?_
    show (s.blob ++ List.replicate _ s.params.flashPad).take s.blob.length = s.blob
    exact List.take_left
  have hstored : u.storedBlob = some s.blob := by
    rw [← hparams] at hheader hdata
    exact State.storedBlob_of_recordBytes hpos hcap hheader hdata
  refine ⟨u, ?_, hu ▸ rfl, hu ▸ rfl, hu ▸ rfl, hstored, ?_, ?_⟩
  · show Host.Outcome.next s.hSaveConfig = _
    rw [State.hSaveConfig, hsave]
    rfl
  · have hboot : (u.resetPorts.setWdt 0).storedBlob = some s.blob := hstored
    rw [State.systemReset_eq, hboot]
    rfl
  · refine (hread 0 _ (by omega)).trans ?_
    rw [← hlength, List.drop_zero, List.take_length, recordBytes, recordHeader_eq, u16le_eq, u16le_eq,
      BitVec.toNat_ofNat, Nat.mod_eq_of_lt (by omega)]
    rfl

end Sys2Proof.Machine

/-! ## The CRCs, one bit at a time (R73, R141, R151) -/

namespace Sys2Proof.Machine

/-- Taking an operand `y` into the register at once, or bit by bit as its bits come to the end that leaves the register,
agree up to what is left of `y`: for steps that on `x ^^^ y` take `y`'s leaving bit into `x` and move `y` on. -/
theorem repeat_xor {w : Nat} {step shift : BitVec w → BitVec w} {leaving : BitVec w → Bool}
    {serial : BitVec w → Bool → BitVec w} (hstep : ∀ x y, step (x ^^^ y) = serial x (leaving y) ^^^ shift y)
    (x y : BitVec w) (n : Nat) :
    Nat.repeat step n (x ^^^ y) =
      ((List.range n).map fun k => leaving (Nat.repeat shift k y)).foldl serial x ^^^ Nat.repeat shift n y := by
  induction n with
  | zero => rfl
  | succ n ih =>
    rw [Nat.repeat, ih, hstep, List.range_succ, List.map_append, List.foldl_append]
    rfl

theorem repeat_shiftLeft {w : Nat} (y : BitVec w) (n : Nat) : Nat.repeat (fun z : BitVec w => z <<< 1) n y = y <<< n := by
  induction n with
  | zero => simp [Nat.repeat]
  | succ n ih => rw [Nat.repeat, ih, BitVec.shiftLeft_add]

theorem repeat_shiftRight {w : Nat} (y : BitVec w) (n : Nat) : Nat.repeat (fun z : BitVec w => z >>> 1) n y = y >>> n := by
  induction n with
  | zero => simp [Nat.repeat]
  | succ n ih => rw [Nat.repeat, ih, BitVec.shiftRight_add]

/-! ### The serial steps -/

/-- CRC-16 takes one bit: it meets bit 15, and where they differ the polynomial is XORed in (R141). -/
def crc16Serial (c : U16) (bit : Bool) : U16 := if c.getLsbD 15 != bit then (c <<< 1) ^^^ 0x1021 else c <<< 1

/-- The default CRC-32 takes one bit: it meets bit 0, and where they differ the reversed polynomial is XORed in (R151). -/
def crc32Serial (c : U32) (bit : Bool) : U32 := if c.getLsbD 0 != bit then (c >>> 1) ^^^ 0xEDB88320 else c >>> 1

/-- The default polynomial, bit 0 first (R150, R151). -/
theorem crc32IsoHdlc_poly_reverse : Config.crc32IsoHdlc.poly.reverse = 0xEDB88320 := by
  refine BitVec.eq_of_getLsbD_eq fun i hi => ?_
  rw [BitVec.getLsbD_reverse]
  interval_cases i <;> rfl

/-- The default initial value is all ones, in either order (R150, R152). -/
theorem crc32Init_crc32IsoHdlc : crc32Init Config.crc32IsoHdlc = 0xFFFFFFFF := by
  refine BitVec.eq_of_getLsbD_eq fun i hi => (BitVec.getLsbD_reverse (x := Config.crc32IsoHdlc.init)).trans ?_
  interval_cases i <;> rfl

/-- A step on a register with an operand in it is the serial step with the operand's leaving bit (R141). -/
theorem crc16Bit_xor (x y : U16) : crc16Bit (x ^^^ y) = crc16Serial x (y.getLsbD 15) ^^^ y <<< 1 := by
  simp only [crc16Bit, crc16Serial, BitVec.getLsbD_xor, BitVec.shiftLeft_xor_distrib]
  split
  · ac_rfl
  · rfl

/-- The same for the default CRC-32 (R151). -/
theorem crc32Bit_xor (x y : U32) :
    crc32Bit Config.crc32IsoHdlc (x ^^^ y) = crc32Serial x (y.getLsbD 0) ^^^ y >>> 1 := by
  have hreflected : Config.crc32IsoHdlc.refIn = true := rfl
  simp only [crc32Bit, crc32Serial, crc32IsoHdlc_poly_reverse, hreflected, if_true, BitVec.getLsbD_xor,
    BitVec.ushiftRight_xor_distrib]
  split
  · ac_rfl
  · rfl

/-! ### A byte -/

/-- CRC-16 takes a byte's bits from bit 7 down (R73, R141). -/
theorem crc16Step_eq_serial (c : U16) (b : Byte) :
    crc16Step c b = ((List.range 8).map fun k => b.getLsbD (7 - k)).foldl crc16Serial c := by
  have hrest : (b.zeroExtend 16 <<< 8) <<< 8 = 0#16 := by
    rw [← BitVec.shiftLeft_add]
    exact BitVec.shiftLeft_eq_zero (by decide)
  have hbits : ∀ k ∈ List.range 8, ((b.zeroExtend 16 <<< 8) <<< k).getLsbD 15 = b.getLsbD (7 - k) := by
    intro k hk
    have hk : k < 8 := List.mem_range.1 hk
    interval_cases k <;> simp
  rw [crc16Step, repeat_xor crc16Bit_xor, repeat_shiftLeft, hrest, BitVec.xor_zero]
  simp only [repeat_shiftLeft]
  rw [List.map_congr_left hbits]

/-- The default CRC-32 takes a byte's bits from bit 0 up (R73, R151). -/
theorem crc32Step_eq_serial (c : U32) (b : Byte) :
    crc32Step Config.crc32IsoHdlc c b = ((List.range 8).map fun k => b.getLsbD k).foldl crc32Serial c := by
  have hrest : b.zeroExtend 32 >>> 8 = 0#32 := by
    refine BitVec.eq_of_getLsbD_eq fun i hi => ?_
    simp
  have hbits : ∀ k ∈ List.range 8, (b.zeroExtend 32 >>> k).getLsbD 0 = b.getLsbD k := by
    intro k hk
    have hk : k < 8 := List.mem_range.1 hk
    interval_cases k <;> simp
  have hreflected : Config.crc32IsoHdlc.refIn = true := rfl
  rw [crc32Step, hreflected, if_pos rfl, repeat_xor crc32Bit_xor, repeat_shiftRight, hrest, BitVec.xor_zero]
  simp only [repeat_shiftRight]
  rw [List.map_congr_left hbits]

/-- Settles O13: each byte's step is the serial steps of its bits, and a run of bytes takes the bits of one after
another. -/
theorem crcTakesBitsInOrder : Obligations.CrcTakesBitsInOrder := by
  intro l
  have hfinal : ∀ c, crc32Final Config.crc32IsoHdlc c = 0xFFFFFFFF ^^^ c := fun c => BitVec.xor_comm c 0xFFFFFFFF
  constructor
  · rw [List.foldl_flatMap]
    exact congrArg (fun f => l.foldl f 0xFFFF) (funext₂ crc16Step_eq_serial)
  · rw [List.foldl_flatMap, crc32, hfinal, crc32Init_crc32IsoHdlc, crc32Update]
    exact congrArg (fun f => 0xFFFFFFFF ^^^ l.foldl f 0xFFFFFFFF) (funext₂ crc32Step_eq_serial)

/-! ## A step that starts a called operation -/

/-- A call whose context may start is the next move (R81). -/
theorem State.nextMove_of_call {s : State} {c : Ctx} {i : Instr} {rest : List Event}
    (hsched : s.schedule = .call c i :: rest) (hstart : s.port.mayStart c = true) :
    s.nextMove = .call i ((s.setSchedule rest).setCtx c) := by
  simp only [State.nextMove, hsched, hstart, if_true, State.enter_eq]

/-- Settles O6: the call is the next move, and the instruction is accepted under the parameters, which entering the context
does not change. -/
theorem stepRunsCalledOperation : Obligations.StepRunsCalledOperation :=
  fun _ _ _ _ hfault hsched hstart hwf => step_of_nextMove_call hfault (State.nextMove_of_call hsched hstart) hwf

end Sys2Proof.Machine

/-! ## The bytes of a batch leave in array order

A round of a UART that becomes ready is two steps: TXE is set, and the waiting context writes its byte. -/

namespace Sys2Proof.Machine

/-- A run's first step (Host/Core.lean). -/
theorem runSteps_succ {s t : State} (h : step s = .next t) (n : Nat) : runSteps (n + 1) s = runSteps n t := by
  simp only [runSteps, Host.Core.run, h]

namespace State

variable {s : State} {i : Nat} {a : Activation} {l : List Activation} {rest : List Event}

/-- A stack update of the running context that leaves it busy leaves it running (R81). -/
theorem running_setStack (hctx : s.ctx = s.port.running) : (s.setStack (a :: l)).port.running = s.port.running := by
  unfold Port.running Port.iActive setStack Port.setContext at *
  cases hc : s.ctx <;> simp_all

/-- `advance` lets the innermost activation of the running context take its step, unless a frame is pending there. -/
theorem step_of_advance (hfault : s.fault = none) (hsched : s.schedule = .advance :: rest)
    (hstack : (s.port.context s.port.running).stack = a :: l) (hframe : ∀ b, a ≠ .dispatch b) :
    step s = ((s.setSchedule rest).setCtx s.port.running).advance.settle := by
  have htop : ((s.setSchedule rest).enter s.port.running).stack = a :: l := hstack
  rcases runMove_cases (s.setSchedule rest) with ⟨b, l', hb, -⟩ | ⟨-, hmove⟩
  · exact absurd (List.cons_eq_cons.1 (htop.symm.trans hb)).1 (hframe b)
  · simp only [step, hfault, nextMove_of_advance hsched, hmove]
    rfl

/-! ### The wait of end_send -/

/-- The running context waits in `end_send` for the turn of byte `i`, or for TC once all are written, with no byte to
capture (R176). -/
structure Waiting (s : State) (i : Nat) (l : List Activation) : Prop where
  fault : s.fault = none
  rxne : s.port.uart.rxne = false
  stack : (s.port.context s.port.running).stack =
    .endSend (if i < s.port.tx.len then .txByte i else .txTc) :: l

/-- What a round of the wait leaves: the batch, the ring, the guard, and which context runs (R176). -/
structure SameBatch (s t : State) : Prop where
  tx : t.port.tx = s.port.tx
  rx : t.port.rx = s.port.rx
  rxBusy : t.port.rxBusy = s.port.rxBusy
  running : t.port.running = s.port.running

/-- Without a byte to capture the receive poll does nothing (R176). -/
theorem rxCapture_of_not_rxne (h : s.port.uart.rxne = false) : s.rxCapture = s := by
  rw [rxCapture_eq, h, if_neg Bool.false_ne_true]

/-- A wait iteration with TXE and nothing to capture writes byte `i` and waits for the next (R176). -/
theorem stepTxByte_of_txe (hrxne : s.port.uart.rxne = false) (htxe : s.port.uart.txe = true) :
    s.stepTxByte i = (s.uartWrite (byteAt s.port.tx.buf i)).setStack
      (.endSend (if i + 1 < s.port.tx.len then .txByte (i + 1) else .txTc) :: s.stack.tail) := by
  simp only [stepTxByte, rxCapture_of_not_rxne hrxne, htxe, if_true]
  rfl

/-- The last wait iteration, with TC and nothing to capture: the batch ends, and the guard is taken for the drain phase, or
its holder gets the call's return (R176, R177). -/
theorem stepTxTc_of_tc (hrxne : s.port.uart.rxne = false) (htc : s.port.uart.tc = true) :
    s.stepTxTc = if s.port.rxBusy then s.finishBatch.1.leave else s.finishBatch.1.replaceTop (.endSend .drain) := by
  simp only [stepTxTc, rxCapture_of_not_rxne hrxne, htc, if_true, finishBatch_eq]
  cases s.port.rxBusy <;> rfl

/-- The running context about to take its step, after the UART came to `x`. -/
def roused (s : State) (x : Uart) (rest : List Event) : State := ((s.setSchedule rest).setUart x).setCtx s.port.running

/-- A UART event and the step of a waiting `end_send` after it, as a run of two steps. -/
theorem runSteps_roused {e : Event} {x : Uart} {ph : SendPhase} {t : State} (hfault : s.fault = none)
    (hsched : s.schedule = e :: .advance :: rest) (hstarts : e.starts = false) (hadvance : e ≠ .advance)
    (hact : (s.setSchedule (.advance :: rest)).act e = (s.setSchedule (.advance :: rest)).setUart x)
    (hstack : (s.port.context s.port.running).stack = .endSend ph :: l) (hstep : (s.roused x rest).advance = t)
    (hgoes : t.fault = none) (n : Nat) : runSteps (n + 2) s = runSteps n t := by
  have hfirst := (step_of_act hfault hsched hstarts hadvance).trans (congrArg Host.Outcome.next hact)
  have hsecond := step_of_advance (s := (s.setSchedule (.advance :: rest)).setUart x) hfault rfl hstack (by simp)
  have hsettle := (congrArg settle hstep).trans (settle_of_none hgoes)
  exact (runSteps_succ hfirst (n + 1)).trans (runSteps_succ (hsecond.trans hsettle) n)

/-- What a waiting `end_send` does next, by its phase. -/
theorem advance_of_txByte (hstack : s.stack = .endSend (.txByte i) :: l) : s.advance = s.stepTxByte i := by
  unfold advance
  rw [hstack]

theorem advance_of_txTc (hstack : s.stack = .endSend .txTc :: l) : s.advance = s.stepTxTc := by
  unfold advance
  rw [hstack]

/-- One round: TXE is set, byte `i` is written, and the context waits for the next byte's turn. -/
theorem Waiting.round (h : s.Waiting i l) (hi : i < s.port.tx.len)
    (hsched : s.schedule = .uartTxe :: .advance :: rest) :
    ∃ t, (∀ n, runSteps (n + 2) s = runSteps n t) ∧ t.Waiting (i + 1) l ∧ s.SameBatch t ∧
      t.port.uart.sent = s.port.uart.sent ++ [byteAt s.port.tx.buf i] ∧ t.schedule = rest := by
  have hstack := h.stack
  rw [if_pos hi] at hstack
  let v := s.roused { s.port.uart with txe := true } rest
  have hvstack : v.stack = .endSend (.txByte i) :: l := hstack
  have hwrite := (advance_of_txByte hvstack).trans (stepTxByte_of_txe (s := v) (i := i) h.rxne rfl)
  rw [hvstack, List.tail_cons] at hwrite
  have hrunning := running_setStack (s := v.uartWrite (byteAt v.port.tx.buf i))
    (a := .endSend (if i + 1 < v.port.tx.len then .txByte (i + 1) else .txTc)) (l := l) rfl
  refine ⟨_, runSteps_roused h.fault hsched rfl (by simp) rfl hstack hwrite h.fault, ⟨h.fault, h.rxne, ?_⟩,
    ⟨rfl, rfl, rfl, hrunning⟩, rfl, rfl⟩
  rw [hrunning]
  exact setStack_stack _ _

/-- The rounds of all bytes still to come: they leave in array order, up to the wait for TC. -/
theorem Waiting.rounds {n : Nat} (h : s.Waiting i l) (hn : i + n = s.port.tx.len)
    (hsched : s.schedule = readyRounds n ++ rest) :
    ∃ t, (∀ k, runSteps (k + 2 * n) s = runSteps k t) ∧ t.Waiting s.port.tx.len l ∧ s.SameBatch t ∧
      t.port.uart.sent = s.port.uart.sent ++ s.port.tx.buf.drop i ∧ t.schedule = rest := by
  induction n generalizing s i with
  | zero =>
    obtain rfl : i = s.port.tx.len := hn
    refine ⟨s, fun _ => rfl, h, ⟨rfl, rfl, rfl, rfl⟩, ?_, hsched⟩
    rw [TxBatch.len, List.drop_length, List.append_nil]
  | succ n ih =>
    have hi : i < s.port.tx.buf.length := by unfold TxBatch.len at hn; omega
    obtain ⟨t, hrun, ht, hsame, hsent, hsched'⟩ := h.round hi hsched
    obtain ⟨u, hrun', hu, hsame', hsent', hrest⟩ := ih ht (by rw [hsame.tx, ← hn]; omega) hsched'
    rw [hsame.tx] at hu hsent'
    refine ⟨u, fun k => (hrun (k + 2 * n)).trans (hrun' k), hu,
      ⟨hsame'.tx.trans hsame.tx, hsame'.rx.trans hsame.rx, hsame'.rxBusy.trans hsame.rxBusy,
        hsame'.running.trans hsame.running⟩, ?_, hrest⟩
    rw [hsent', hsent, List.append_assoc, List.drop_eq_getElem_cons hi, byteAt, List.getD_eq_getElem _ _ hi]
    rfl

/-- TC ends the batch: the guard is held, by the drain phase or by the holder to whom the call returns (R176, R177). -/
theorem Waiting.finish (h : s.Waiting s.port.tx.len l) (hsched : s.schedule = .uartTc :: .advance :: rest) :
    ∃ t, runSteps 2 s = .next t ∧ t.port.uart.sent = s.port.uart.sent ∧ t.schedule = rest ∧
      t.port.tx.inProgress = false ∧ t.port.rxBusy = true ∧ t.port.rx = s.port.rx ∧
      (t.port.context s.port.running).stack =
        if s.port.rxBusy then l.dropWhile Activation.isAwaiting else .endSend .drain :: l := by
  have hstack := h.stack
  rw [if_neg (Nat.lt_irrefl _)] at hstack
  let v := s.roused { s.port.uart with tc := true } rest
  have hvstack : v.stack = .endSend .txTc :: l := hstack
  have hend := (advance_of_txTc hvstack).trans (stepTxTc_of_tc (s := v) h.rxne rfl)
  have hbusy : v.port.rxBusy = s.port.rxBusy := rfl
  rw [hbusy, finishBatch_eq, hbusy] at hend
  cases hguard : s.port.rxBusy <;> rw [hguard] at hend
  · exact ⟨_, runSteps_roused h.fault hsched rfl (by simp) rfl hstack hend h.fault 0, rfl, rfl, rfl, rfl, rfl,
      (setStack_stack _ _).trans (congrArg (.endSend .drain :: List.tail ·) hvstack)⟩
  · exact ⟨_, runSteps_roused h.fault hsched rfl (by simp) rfl hstack hend h.fault 0, rfl, rfl, rfl, hguard, rfl,
      (setStack_stack _ _).trans (congrArg (fun k => k.tail.dropWhile Activation.isAwaiting) hvstack)⟩

end State

/-- Settles O25: a round for each byte, then TC. -/
theorem batchLeavesInOrder : Obligations.BatchLeavesInOrder := by
  intro s i l rest hfault hi hstack hrxne hsched
  have hwait : s.Waiting i l := ⟨hfault, hrxne, by rw [if_pos hi, hstack]⟩
  rw [batchEvents, List.append_assoc] at hsched
  obtain ⟨t, hrun, ht, hsame, hsent, hsched'⟩ := hwait.rounds (by omega) hsched
  rw [← hsame.tx] at ht
  obtain ⟨u, hrun', hsent', hfinal⟩ := ht.finish hsched'
  rw [hsame.rx, hsame.rxBusy, hsame.running] at hfinal
  exact ⟨u, (congrArg (runSteps · s) (Nat.add_comm _ 2)).trans ((hrun 2).trans hrun'), hsent'.trans hsent, hfinal⟩

end Sys2Proof.Machine

/-! ## What an operation of a context leaves alone

Three relations between a state and a later one. `OwnContext`: the other context's record, which context executes, the
schedule and the parameters are the same. `Confined`: besides those, the flash is. `SectorOnly`: besides those of
`OwnContext`, every flash byte outside the sector reads the same. Every operation but the store's is confined; the store's
stay inside the sector. -/

namespace Sys2Proof.Machine

/-- `t` differs from `s` in nothing that belongs to the other context or to the environment's choice of what comes next. -/
structure State.OwnContext (s t : State) : Prop where
  params : t.params = s.params
  ctx : t.ctx = s.ctx
  schedule : t.schedule = s.schedule
  other : t.port.context s.ctx.other = s.port.context s.ctx.other

/-- And the flash is the same. -/
structure State.Confined (s t : State) : Prop extends State.OwnContext s t where
  flash : t.flash = s.flash

/-- And the flash, canonical before, is canonical and reads the same outside the sector (R79, R330). -/
structure State.SectorOnly (s t : State) : Prop extends State.OwnContext s t where
  wf : Memory.wf s.params.flashErased s.flash.cells = true → Memory.wf t.params.flashErased t.flash.cells = true
  read : Memory.wf s.params.flashErased s.flash.cells = true → ∀ a,
    ¬(s.params.sectorBase ≤ a ∧ a < s.params.sectorBase + s.params.sectorSize) → t.flashRead a = s.flashRead a

/-- A later state in a relation, or a system reset of one. -/
def State.OrResets (R : State → State → Prop) (s t : State) : Prop := ∃ v, R s v ∧ (t = v ∨ t = systemReset v)

namespace State

variable {s t u : State}

/-! ### The relations -/

theorem OwnContext.trans (hst : s.OwnContext t) (htu : t.OwnContext u) : s.OwnContext u :=
  ⟨htu.params.trans hst.params, htu.ctx.trans hst.ctx, htu.schedule.trans hst.schedule,
    (hst.ctx ▸ htu.other).trans hst.other⟩

@[refl] theorem Confined.refl (s : State) : s.Confined s := ⟨⟨rfl, rfl, rfl, rfl⟩, rfl⟩

@[trans] theorem Confined.trans (hst : s.Confined t) (htu : t.Confined u) : s.Confined u :=
  ⟨hst.toOwnContext.trans htu.toOwnContext, htu.flash.trans hst.flash⟩

/-- The same flash under the same parameters reads the same. -/
theorem flashRead_congr (hparams : t.params = s.params) (hflash : t.flash = s.flash) (a : Nat) :
    t.flashRead a = s.flashRead a := by
  unfold flashRead
  rw [hparams, hflash]

theorem Confined.sectorOnly (h : s.Confined t) : s.SectorOnly t :=
  ⟨h.toOwnContext, fun hwf => by rw [h.params, h.flash]; exact hwf, fun _ a _ => flashRead_congr h.params h.flash a⟩

@[trans] theorem SectorOnly.trans (hst : s.SectorOnly t) (htu : t.SectorOnly u) : s.SectorOnly u :=
  ⟨hst.toOwnContext.trans htu.toOwnContext, fun hwf => htu.wf (hst.wf hwf), fun hwf a ha =>
    (htu.read (hst.wf hwf) a (by rw [hst.params]; exact ha)).trans (hst.read hwf a ha)⟩

theorem OrResets.single {R : State → State → Prop} (h : R s t) : s.OrResets R t := ⟨t, h, .inl rfl⟩

theorem OrResets.imp {R Q : State → State → Prop} (himp : ∀ v, R s v → Q t v) (h : s.OrResets R u) : t.OrResets Q u :=
  by
  obtain ⟨v, hv, he⟩ := h
  exact ⟨v, himp v hv, he⟩

/-! ### The named updates -/

theorem confined_setStack (l : List Activation) : s.Confined (s.setStack l) := ⟨⟨rfl, rfl, rfl, setStack_other s l⟩, rfl⟩
theorem confined_setRet (r : Returned) : s.Confined (s.setRet r) := ⟨⟨rfl, rfl, rfl, setRet_other s r⟩, rfl⟩

/-- An update that leaves both contexts' records is confined, if it leaves the rest. -/
theorem Confined.of_contexts (hparams : t.params = s.params) (hctx : t.ctx = s.ctx) (hsched : t.schedule = s.schedule)
    (hm : t.port.ctxM = s.port.ctxM) (hi : t.port.ctxI = s.port.ctxI) (hflash : t.flash = s.flash) : s.Confined t := by
  refine ⟨⟨hparams, hctx, hsched, ?_⟩, hflash⟩
  cases s.ctx
  · exact hi
  · exact hm

theorem confined_setTx (x : TxBatch) : s.Confined (s.setTx x) := .of_contexts rfl rfl rfl rfl rfl rfl
theorem confined_setRx (r : Ring) : s.Confined (s.setRx r) := .of_contexts rfl rfl rfl rfl rfl rfl
theorem confined_setRxBusy (b : Bool) : s.Confined (s.setRxBusy b) := .of_contexts rfl rfl rfl rfl rfl rfl
theorem confined_setStream (x : Stream) : s.Confined (s.setStream x) := .of_contexts rfl rfl rfl rfl rfl rfl
theorem confined_setUart (x : Uart) : s.Confined (s.setUart x) := .of_contexts rfl rfl rfl rfl rfl rfl
theorem confined_setTransport (x : Transport) : s.Confined (s.setTransport x) := .of_contexts rfl rfl rfl rfl rfl rfl

theorem confined_raise (k : Fault) : s.Confined (s.raise k) := by
  unfold raise
  split
  · exact .of_contexts rfl rfl rfl rfl rfl rfl
  · exact .refl s

/-! ### The arbiter -/

theorem confined_rxCapture : s.Confined s.rxCapture := by
  rcases rxCapture_cases (s := s) with ⟨-, e⟩ | ⟨-, e⟩ <;> rw [e]
  exact (confined_setRx _).trans (confined_setUart _)

theorem confined_beginBatch : s.Confined s.beginBatch.1 := by
  rcases beginBatch_cases (s := s) with ⟨-, -, m, i, e, -⟩ | ⟨-, e⟩ <;> rw [e] <;> exact confined_setTx _

theorem confined_appendToBatch (b : Byte) : s.Confined (s.appendToBatch b) := by
  rcases appendToBatch_cases (s := s) b with ⟨-, e⟩ | ⟨-, -, e⟩ | ⟨-, -, -, e⟩ | ⟨-, -, -, e⟩ <;> rw [e]
  · exact confined_raise _
  · exact confined_setTx _

theorem confined_finishBatch : s.Confined s.finishBatch.1 := by
  rw [finishBatch_eq]
  simp only
  split
  · exact confined_setTx _
  · exact (confined_setTx _).trans (confined_setRxBusy true)

theorem confined_stepTxByte (i : Nat) : s.Confined (s.stepTxByte i) := by
  unfold stepTxByte
  simp only
  split
  · exact confined_rxCapture.trans ((confined_setUart _).trans (confined_setStack _))
  · exact confined_rxCapture

theorem confined_stepTxTc : s.Confined s.stepTxTc := by
  have hfinish := confined_rxCapture.trans (confined_finishBatch (s := s.rxCapture))
  unfold stepTxTc
  simp only
  split
  · split <;> rename_i e <;> rw [e] at hfinish <;> exact hfinish.trans (confined_setStack _)
  · exact confined_rxCapture

theorem confined_endSendEntry : s.Confined s.endSendEntry := by
  have hfinish := confined_finishBatch (s := s)
  unfold endSendEntry
  simp only
  split
  · exact .refl s
  split
  · exact confined_raise _
  split
  · split <;> rename_i e <;> rw [e] at hfinish
    · exact hfinish.trans (confined_setStack _)
    · exact hfinish
  · exact (confined_setStack _).trans (confined_stepTxByte 0)

theorem confined_stepDrain : s.Confined s.stepDrain := by
  rcases stepDrain_cases (s := s) with ⟨-, e⟩ | ⟨-, e⟩ <;> rw [e]
  · exact (confined_setRxBusy false).trans (confined_setStack _)
  · exact (confined_setRx _).trans (confined_setStack _)

theorem confined_feedEntry (b : Byte) : s.Confined (s.feedEntry b) := by
  unfold feedEntry
  split
  · exact confined_setRx _
  · exact (confined_setRxBusy true).trans ((confined_setStack _).trans (confined_setStack _))

/-! ### The tick and the transport -/

theorem confined_tickEntry : s.Confined s.tickEntry := by
  unfold tickEntry
  split
  · exact confined_setRet _
  · exact (confined_setRxBusy true).trans ((confined_setRet _).trans ((confined_setStack _).trans (confined_setStack _)))

theorem confined_stepDecide : s.Confined s.stepDecide := by
  unfold stepDecide
  simp only
  split
  · exact (confined_setStream _).trans (confined_setStack _)
  · exact confined_setStack _

theorem confined_transportSend (id : FrameId) (p : List Byte) (mode : SendMode) :
    s.Confined (s.transportSend id p mode) := by
  unfold transportSend
  split
  · exact (confined_setTransport _).trans (confined_setStack _)
  · exact confined_setStack _

theorem confined_sendReply (id : FrameId) (p : List Byte) (mode : SendMode) : s.Confined (s.sendReply id p mode) :=
  (confined_setStack _).trans (confined_transportSend id p mode)

theorem confined_acceptDelivery (d : Delivery) : s.Confined (s.acceptDelivery d).1 := by
  obtain ⟨q, n, e⟩ := acceptDelivery_frame (s := s) d
  rw [e]
  exact .of_contexts rfl rfl rfl rfl rfl rfl

theorem confined_stepPoll (b : Byte) : s.Confined (s.stepPoll b) := by
  unfold stepPoll
  split
  · exact confined_raise _
  split
  · exact (confined_setTransport _).trans (confined_setStack _)
  · rename_i t d _
    have haccept := (confined_setTransport t).trans ((confined_setStack _).trans
      (confined_acceptDelivery (s := (s.setTransport t).replaceTop .delivered) d))
    split <;> rename_i e <;> rw [e] at haccept
    · exact haccept.trans (confined_setStack _)
    · exact haccept

theorem confined_stepHousekeeping : s.Confined s.stepHousekeeping := by
  unfold stepHousekeeping
  split
  · exact confined_raise _
  · exact confined_setStack _

theorem confined_stepTransmit (ph : TransmitPhase) : s.Confined (s.stepTransmit ph) := by
  cases ph with
  | spaceTest f =>
    simp only [stepTransmit]
    split <;> exact confined_setStack _
  | beginBatch f =>
    have hbegin := confined_beginBatch (s := s)
    simp only [stepTransmit]
    split <;> rename_i e <;> rw [e] at hbegin <;> exact hbegin.trans (confined_setStack _)
  | appendBytes rest =>
    cases rest with
    | nil => exact (confined_setStack _).trans (confined_endSendEntry.trans (confined_setStack _))
    | cons b bs => exact (confined_appendToBatch b).trans (confined_setStack _)

/-! ### The handlers but the store's -/

theorem confined_sendChunks (k total : Nat) : s.Confined (s.sendChunks k total) := by
  unfold sendChunks
  simp only
  split
  · exact (confined_setStack _).trans (confined_sendReply ..)
  · exact confined_sendReply ..

theorem confined_hReset : s.Confined s.hReset := (confined_setStack _).trans (confined_sendReply ..)

theorem confined_hGetConfig : s.Confined s.hGetConfig := by
  unfold hGetConfig
  split
  · exact confined_sendReply ..
  · exact confined_sendChunks ..

theorem confined_hLoadBinary (p : List Byte) : s.Confined (s.hLoadBinary p) := by
  unfold hLoadBinary
  split
  · exact confined_sendReply ..
  · rename_i c _
    obtain ⟨e, n, hload, -⟩ := execLoad_frame (s := s) p c
    have hwrites : s.Confined (s.execLoad p c).1 := hload ▸ .of_contexts rfl rfl rfl rfl rfl rfl
    exact hwrites.trans (confined_sendReply ..)

theorem confined_hStartStream (p : List Byte) : s.Confined (s.hStartStream p) :=
  (confined_setStream _).trans (confined_sendReply ..)

theorem confined_hStopStream : s.Confined s.hStopStream := (confined_setStream _).trans (confined_sendReply ..)

theorem confined_hSetOutput (p : List Byte) : s.Confined (s.hSetOutput p) := by
  unfold hSetOutput
  split
  · exact confined_sendReply ..
  · rename_i ch st _
    have hrequest : s.Confined (s.setOutput ch st) := .of_contexts rfl rfl rfl rfl rfl rfl
    exact hrequest.trans (confined_sendReply ..)

/-- Every handler but SaveConfig's and ClearConfig's is confined (R220). -/
theorem handle_cases (id : FrameId) (p : List Byte) :
    s.Confined (s.handle id p) ∨ (id = 0x14 ∧ s.handle id p = s.hSaveConfig) ∨
      (id = 0x16 ∧ s.handle id p = s.hClearConfig) := by
  unfold handle
  split; · exact .inl (confined_sendReply ..)
  split; · exact .inl confined_hReset
  split; · exact .inl confined_hGetConfig
  split; · exact .inl (confined_hLoadBinary p)
  split; · exact .inr (.inl ⟨by assumption, rfl⟩)
  split; · exact .inr (.inr ⟨by assumption, rfl⟩)
  split; · exact .inl (confined_hStartStream p)
  split; · exact .inl confined_hStopStream
  split; · exact .inl (confined_hSetOutput p)
  split; · exact .inl (confined_sendReply ..)
  exact .inl (confined_sendReply ..)

/-! ### The store -/

/-- An erase changes bytes of the sector only, whatever its outcome (R330, R338). -/
theorem sectorOnly_eraseSector : s.SectorOnly s.eraseSector.1 := by
  refine ⟨⟨rfl, rfl, rfl, rfl⟩, fun hwf => ?_, fun hwf a ha => ?_⟩ <;>
    simp only [eraseSector, flashRead, setFresh_params, setFresh_flash, setFlash_params, setFlash_flash] <;>
    cases s.nextErase
  · exact Memory.wf_erase _ _ hwf
  · exact Memory.wf_scramble _ _ _ hwf
  · exact Memory.wf_scramble _ _ _ hwf
  · rw [Memory.read_erase, if_neg ha]
  · exact Memory.read_scramble_outside _ _ _ _ hwf ha
  · exact Memory.read_scramble_outside _ _ _ _ hwf ha

/-- A program call on a word of the sector changes bytes of the sector only (R330). -/
theorem sectorOnly_programWord {a : Nat} {w : List Byte} (hlow : s.params.sectorBase ≤ a)
    (hhigh : a + w.length ≤ s.params.sectorBase + s.params.sectorSize) : s.SectorOnly (s.programWord a w).1 := by
  refine ⟨⟨rfl, rfl, rfl, rfl⟩, fun hwf => ?_, fun hwf k hk => ?_⟩ <;>
    simp only [programWord, flashRead, setFresh_params, setFresh_flash, setFlash_params, setFlash_flash] <;>
    cases s.nextProgram
  · exact Memory.wf_scramble _ _ _ hwf
  · exact Memory.wf_writeBytes _ _ hwf
  · exact Memory.read_scramble_outside _ _ _ _ hwf (by omega)
  · exact (Memory.read_writeBytes _ _ _ hwf).trans (if_neg (by omega))

/-- The program loop inside the sector, up to its end or to the first word that fails (R333). -/
theorem sectorOnly_programWords {a : Nat} {l : List Byte} {s : State} (hlow : s.params.sectorBase ≤ a)
    (hhigh : a + l.length ≤ s.params.sectorBase + s.params.sectorSize) :
    s.SectorOnly (State.programWords a l s).1 := by
  induction a, l, s using State.programWords.induct with
  | case1 a b0 b1 b2 b3 rest s t hword ih =>
    have hst := sectorOnly_programWord (s := s) (a := a) (w := [b0, b1, b2, b3]) hlow
      (by simp only [List.length_cons, List.length_nil] at hhigh ⊢; omega)
    rw [hword] at hst
    rw [State.programWords, hword]
    simp only [List.length_cons] at hhigh
    refine hst.trans (ih ?_ ?_) <;> rw [hst.params] <;> omega
  | case2 a b0 b1 b2 b3 rest s t hword =>
    have hst := sectorOnly_programWord (s := s) (a := a) (w := [b0, b1, b2, b3]) hlow
      (by simp only [List.length_cons, List.length_nil] at hhigh ⊢; omega)
    rw [State.programWords, hword]
    rwa [hword] at hst
  | case3 l a s hl =>
    rw [State.programWords]
    · exact (Confined.refl s).sectorOnly
    · exact hl

/-- What a guarded erase does before it answers or resets the system (R333, R335, R338). -/
theorem sectorOnly_refreshedErase :
    s.SectorOnly s.wdtRefresh.eraseSector.1 ∧ s.SectorOnly s.wdtRefresh.eraseSector.1.wdtRefresh := by
  have hrefresh : ∀ u : State, u.Confined u.wdtRefresh := fun u => .of_contexts rfl rfl rfl rfl rfl rfl
  have herase := (hrefresh s).sectorOnly.trans sectorOnly_eraseSector
  exact ⟨herase, herase.trans (hrefresh _).sectorOnly⟩

/-- The record lies inside the sector (R79, R331). -/
theorem recordBytes_in_sector (p : Config.Params) {blob : List Byte} (hcap : blob.length ≤ Config.blobCap) :
    p.recordAddr + (recordBytes p.flashPad blob).length ≤ p.sectorBase + p.sectorSize := by
  have hfit := p.record_high
  rw [length_recordBytes]
  simp only [Config.recordMax, Config.blobCap] at hfit hcap
  omega

/-- SaveConfig changes bytes of the sector only, up to a system reset inside its erase (R228, R333, R338). -/
theorem sectorOnly_hSaveConfig : s.OrResets SectorOnly s.hSaveConfig := by
  obtain ⟨hexpired, hanswered⟩ := sectorOnly_refreshedErase (s := s)
  have hreply : ∀ {v : State} (p : List Byte), s.SectorOnly v → s.OrResets SectorOnly (v.sendReply 0x15 p .rel) :=
    fun p hv => .single (hv.trans (confined_sendReply 0x15 p .rel).sectorOnly)
  unfold hSaveConfig storeSave
  by_cases hblob : s.blob.length = 0 ∨ Config.blobCap < s.blob.length
  · rw [if_pos hblob]
    exact hreply _ (Confined.refl s).sectorOnly
  · rw [if_neg hblob]
    rcases guardedErase_cases (s := s) with ⟨ok, e, -⟩ | ⟨-, e⟩ <;> rw [e]
    · cases ok
      · exact hreply _ hanswered
      · exact hreply _ (hanswered.trans (sectorOnly_programWords (s := s.wdtRefresh.eraseSector.1.wdtRefresh)
          (l := recordBytes s.params.flashPad s.blob) s.params.record_low
          (recordBytes_in_sector s.params (Nat.le_of_not_lt fun h => hblob (.inr h)))))
    · exact ⟨_, hexpired, .inr rfl⟩

/-- ClearConfig changes bytes of the sector only, up to a system reset inside its erase (R229, R335, R338). -/
theorem sectorOnly_hClearConfig : s.OrResets SectorOnly s.hClearConfig := by
  have hclear : s.Confined (s.setBlob []) := .of_contexts rfl rfl rfl rfl rfl rfl
  obtain ⟨hexpired, hanswered⟩ := sectorOnly_refreshedErase (s := s.setBlob [])
  unfold hClearConfig storeClear
  rcases guardedErase_cases (s := s.setBlob []) with ⟨ok, e, -⟩ | ⟨-, e⟩ <;> rw [e]
  · exact .single (hclear.sectorOnly.trans (hanswered.trans (confined_sendReply 0x17 [0x01] .rel).sectorOnly))
  · exact ⟨_, hclear.sectorOnly.trans hexpired, .inr rfl⟩

end State

/-! ### An operation that completes -/

/-- Besides SaveConfig and ClearConfig, received or handed to `dispatch`, an operation that completes is confined. -/
theorem exec_cases {i : Instr} {s t : State} (h : exec i s = .next t) :
    s.Confined t ∨
    (((∃ p, i = .saveConfig p) ∨ (∃ p, i = .clearConfig p) ∨ (∃ p, i = .dispatch 0x14 p) ∨ ∃ p, i = .dispatch 0x16 p) ∧
      s.OrResets State.SectorOnly t) := by
  cases i with
  | ping | getCapabilities | loadConfigReserved | configAckReserved | unrecognized | pong | configData | flashAck
  | clearConfigAck | binaryAck | data | outputAck | capabilities | ack | nack | reply =>
    cases h
    exact .inl (State.confined_sendReply ..)
  | reset => cases h; exact .inl State.confined_hReset
  | getConfig => cases h; exact .inl State.confined_hGetConfig
  | saveConfig p => cases h; exact .inr ⟨.inl ⟨p, rfl⟩, State.sectorOnly_hSaveConfig⟩
  | clearConfig p => cases h; exact .inr ⟨.inr (.inl ⟨p, rfl⟩), State.sectorOnly_hClearConfig⟩
  | loadBinary p => cases h; exact .inl (State.confined_hLoadBinary p)
  | startStream p => cases h; exact .inl (State.confined_hStartStream p)
  | stopStream => cases h; exact .inl State.confined_hStopStream
  | setOutput p => cases h; exact .inl (State.confined_hSetOutput p)
  | crc16Step | crc16 | crc32Step | crc32 | spaceRemaining | nowMs => cases h; exact .inl (State.confined_setRet _)
  | ringPut b => cases h; exact .inl ((State.confined_setRx _).trans (State.confined_setRet _))
  | ringGet =>
    change execRingGet s = _ at h
    unfold execRingGet at h
    split at h
    · cases h
    · cases h
      exact .inl ((State.confined_setRx _).trans (State.confined_setRet _))
  | beginSend => cases h; exact .inl (State.confined_beginBatch.trans (State.confined_setRet _))
  | appendByte b =>
    obtain ⟨-, rfl⟩ := State.settle_eq_next_iff.1 h
    exact .inl (State.confined_appendToBatch b)
  | endSend =>
    obtain ⟨-, rfl⟩ := State.settle_eq_next_iff.1 h
    exact .inl State.confined_endSendEntry
  | feed b => cases h; exact .inl (State.confined_feedEntry b)
  | drainAndRelease => cases h; exact .inl ((State.confined_setStack _).trans State.confined_stepDrain)
  | tick => cases h; exact .inl State.confined_tickEntry
  | dispatch id p =>
    cases h
    have hpush : s.Confined (s.push (.awaiting .dispatch)) := State.confined_setStack _
    have hover : ∀ {u : State}, (s.push (.awaiting .dispatch)).OrResets State.SectorOnly u →
        s.OrResets State.SectorOnly u := State.OrResets.imp fun v hv => hpush.sectorOnly.trans hv
    rcases State.handle_cases (s := s.push (.awaiting .dispatch)) id p with hc | ⟨rfl, e⟩ | ⟨rfl, e⟩
    · exact .inl (hpush.trans hc)
    · exact .inr ⟨.inr (.inr (.inl ⟨p, rfl⟩)), e ▸ hover State.sectorOnly_hSaveConfig⟩
    · exact .inr ⟨.inr (.inr (.inr ⟨p, rfl⟩)), e ▸ hover State.sectorOnly_hClearConfig⟩

/-- Settles O52: a confined operation leaves the flash, and the store's operations stay inside the sector; a system reset
leaves the flash too. -/
theorem flashFrame : Obligations.FlashFrame := by
  intro s t i a hflash hexec
  rcases exec_cases hexec with h | ⟨hstore, v, hv, ht⟩
  · exact .inl (State.flashRead_congr h.params h.flash a)
  · by_cases ha : s.params.sectorBase ≤ a ∧ a < s.params.sectorBase + s.params.sectorSize
    · exact .inr ⟨ha, hstore⟩
    · left
      rw [← hv.read hflash.1 a ha]
      rcases ht with rfl | rfl
      · rfl
      · exact State.flashRead_congr State.systemReset_params State.systemReset_flash a

/-! ## Context I runs to completion -/

/-- An operation that completes is its context's own, unless it resets the system. -/
theorem exec_ownContext {i : Instr} {s t : State} (h : exec i s = .next t) : s.OrResets State.OwnContext t := by
  rcases exec_cases h with h | ⟨-, h⟩
  · exact .single h.toOwnContext
  · exact h.imp fun v hv => hv.toOwnContext

namespace State

variable {s t u : State}

/-- The innermost activation's step is its context's own, unless it resets the system (R39, R224). -/
theorem ownContext_advance : s.OrResets OwnContext s.advance := by
  have hown : ∀ {u : State}, s.Confined u → s.OrResets OwnContext u := fun h => .single h.toOwnContext
  unfold advance
  generalize s.stack = l
  cases l with
  | nil => exact hown (.refl s)
  | cons a l =>
    cases a with
    | feed | drain => exact hown confined_stepDrain
    | tick ph =>
      cases ph with
      | decide => exact hown confined_stepDecide
      | emit k now => exact hown ((confined_setStack _).trans (confined_transportSend ..))
      | drain => exact hown confined_stepDrain
    | endSend ph =>
      cases ph with
      | txByte i => exact hown (confined_stepTxByte i)
      | txTc => exact hown confined_stepTxTc
      | drain => exact hown confined_stepDrain
    | poll b => exact hown (confined_stepPoll b)
    | delivered => exact hown ((confined_setTransport _).trans (confined_setStack _))
    | housekeeping => exact hown confined_stepHousekeeping
    | dispatch => exact hown (.refl s)
    | transmit ph => exact hown (confined_stepTransmit ph)
    | relSent | awaiting => exact hown (confined_setStack _)
    | getConfig k total => exact hown ((confined_setStack _).trans (confined_sendChunks k total))
    | sysReset => exact ⟨s, (Confined.refl s).toOwnContext, .inr rfl⟩

/-- A step in which the running context moves is that context's own, unless it resets the system (R81). -/
theorem ownContext_of_runMove (hmove : s.nextMove = u.runMove) (hstep : step s = .next t) :
    (u.setCtx u.port.running).OrResets OwnContext t := by
  obtain ⟨-, hcases⟩ := step_cases hstep
  rw [hmove] at hcases
  rcases runMove_cases u with ⟨b, l, -, e⟩ | ⟨-, e⟩ <;> rw [e] at hcases
  · rcases hcases with h | ⟨_, _, h, -⟩ | ⟨b', i, v, h, -, hexec⟩ | ⟨_, h, -⟩
    · cases h
    · cases h
    · cases h
      exact (exec_ownContext hexec).imp fun w hw => (confined_setStack _).toOwnContext.trans hw
    · cases h
  · rcases hcases with h | ⟨_, _, h, -⟩ | ⟨_, _, _, h, -⟩ | ⟨v, h, -, rfl⟩
    · cases h
    · cases h
    · cases h
    · cases h
      exact ownContext_advance

/-- While context I is busy it is the running one (R81). -/
theorem running_of_busy (hbusy : s.port.ctxI.stack ≠ []) : s.port.running = .i := by
  simp [Port.running, Port.iActive, hbusy]

/-- While context I is busy nothing can start, in either context (R81, R406). -/
theorem mayStart_of_busy (hbusy : s.port.ctxI.stack ≠ []) (c : Ctx) : s.port.mayStart c = false := by
  cases c <;> simp [Port.mayStart, Port.iActive, hbusy]

/-- So what comes to start waits at the schedule's head, and the running context moves. -/
theorem nextMove_of_busy {e : Event} {rest : List Event} (hbusy : s.port.ctxI.stack ≠ [])
    (hsched : s.schedule = e :: rest) (hstarts : e.starts = true) : s.nextMove = s.runMove := by
  cases e with
  | call c i | frame c b | rxEntry c =>
    simp only [nextMove, hsched, mayStart_of_busy hbusy c, Bool.false_eq_true, if_false]
  | _ => cases hstarts

/-- A step in which a busy context I moves: M's record stays, or the system was reset; the schedule is what it was. -/
theorem busy_step (hbusy : u.port.ctxI.stack ≠ []) (hmove : s.nextMove = u.runMove) (hstep : step s = .next t) :
    (t.ctx = .i ∧ t.port.ctxM = u.port.ctxM ∨ t.port.ctxM = Context.reset ∧ t.port.ctxI = Context.reset) ∧
      t.schedule = u.schedule := by
  obtain ⟨v, hv, ht⟩ := ownContext_of_runMove hmove hstep
  rw [running_of_busy hbusy] at hv
  rcases ht with rfl | rfl
  · exact ⟨.inl ⟨hv.ctx, hv.other⟩, hv.schedule⟩
  · rw [systemReset_port]
    exact ⟨.inr ⟨rfl, rfl⟩, systemReset_schedule.trans hv.schedule⟩

end State

/-- Settles O7: with an empty schedule, after `advance` and while an entry waits, the step is busy context I's own. -/
theorem interruptRunsToCompletion : Obligations.InterruptRunsToCompletion := by
  rintro s t hbusy hstep (hnil | ⟨e, rest, hsched, rfl | hstarts⟩)
  · have hmove : s.nextMove = s.runMove := by simp only [State.nextMove, hnil]
    exact ⟨(State.busy_step hbusy hmove hstep).1, by simp [hnil], by simp [hnil]⟩
  · obtain ⟨hown, hrest⟩ := State.busy_step (u := s.setSchedule rest) hbusy (State.nextMove_of_advance hsched) hstep
    refine ⟨hown, fun rest' h => ?_, fun e rest' h hstarts => ?_⟩ <;> rw [hsched] at h <;> cases h
    · exact hrest
    · cases hstarts
  · obtain ⟨hown, hwaits⟩ := State.busy_step hbusy (State.nextMove_of_busy hbusy hsched hstarts) hstep
    refine ⟨hown, fun rest' h => ?_, fun e' rest' h _ => hwaits.trans h⟩
    rw [hsched] at h
    cases h
    cases hstarts

end Sys2Proof.Machine

/-! ## Decoding and encoding (30_encoding)

Each frame instruction carries its own id and payload (`Instr.frame?`); `decodeId` is that map's inverse on the instructions
whose id is their own, and `exec` of such an instruction is the handler `dispatch` selects for the id. -/

namespace Sys2Proof

/-- What `Instr.wf` asks of the id alone: the unrecognized path has an id no row names (R104). -/
def Instr.idOk (r : FrameId) : Instr → Bool
  | .unrecognized id _ => unnamedId r id
  | _ => true

variable {r id : FrameId} {p : List Byte} {i : Instr}

/-- A frame instruction is well-formed when its id is its own and its payload fits the length byte (R100, R104, R110). -/
theorem Instr.wf_of_frame? (hframe : i.frame? r = some (id, p)) : i.wf r = (i.idOk r && payloadOk p) := by
  cases i <;> cases hframe <;> rfl

/-! ### The 6-bit id (R101 to R105) -/

/-- `ID_RESET` is none of the named ids (R8), so that its test is reached. -/
theorem decodeId_idReset (hr : r ∉ Config.takenIds) : decodeId r r p = .reset p := by
  simp_all [decodeId, Config.takenIds]

/-- An id no row names passes every test (R104). -/
theorem decodeId_of_unnamed (hid : unnamedId r id = true) : decodeId r id p = .unrecognized id p := by
  simp_all [decodeId, Config.takenIds]

/-- The decoder gives back the instruction whose id and payload it is given. -/
theorem decodeId_of_frame? (hr : r ∉ Config.takenIds) (hid : i.idOk r = true) (hframe : i.frame? r = some (id, p)) :
    decodeId r id p = i := by
  cases i with
  | reset => cases hframe; exact decodeId_idReset hr
  | unrecognized => cases hframe; exact decodeId_of_unnamed hid
  | _ => cases hframe <;> rfl

/-- The instruction decoded from an id and a payload carries them, and takes the unrecognized path only when every test has
passed over the id (R104). -/
theorem decodeId_carries (r id : FrameId) (p : List Byte) :
    (decodeId r id p).frame? r = some (id, p) ∧ (decodeId r id p).idOk r = true := by
  unfold decodeId
  iterate 22
    refine iteInduction (motive := fun i : Instr => i.frame? r = some (id, p) ∧ i.idOk r = true)
      (fun h => by subst h; exact ⟨rfl, rfl⟩) fun _ => ?_
  exact ⟨rfl, by simp_all [Instr.idOk, Config.takenIds]⟩

/-! ### The frame's bytes (R273, R276) -/

@[simp] theorem idOf_idByte (id : FrameId) : idOf (idByte id) = id := by
  ext k hk
  have hbyte : k < 8 := by omega
  simp [idOf, idByte, hbyte, BitVec.getLsbD_eq_getElem hk]

/-- Bits 7 and 6 of an unreliable frame's id/control byte are 0 (R276). -/
theorem idByte_idOf {idc : Byte} (h7 : idc.getLsbD 7 = false) (h6 : idc.getLsbD 6 = false) : idByte (idOf idc) = idc := by
  refine BitVec.eq_of_getLsbD_eq fun k hk => ?_
  obtain hlow | rfl | rfl : k < 6 ∨ k = 6 ∨ k = 7 := by omega
  · simp [idByte, idOf, hlow, hk]
  · simpa [idByte, idOf] using h6.symm
  · simpa [idByte, idOf] using h7.symm

/-- A frame's bytes decode to what its id selects, and leave what stands behind them (R276). -/
theorem decode_frameBytes_append (hp : p.length ≤ Config.maxPayload) (rest : List Byte) :
    decode r (frameBytes id p ++ rest) = .ok (decodeId r id p, rest) := by
  have hunsequenced : (idByte id).getLsbD 7 = false := by simp [idByte]
  have hlen : (BitVec.ofNat 8 p.length).toNat = p.length := by
    rw [BitVec.toNat_ofNat]
    exact Nat.mod_eq_of_lt (Nat.lt_succ_of_le hp)
  have hcovered : ¬ (p ++ rest).length < p.length := by simp
  simp only [frameBytes, List.cons_append, decode, hunsequenced, hlen, hcovered, Bool.false_eq_true, if_false,
    idOf_idByte, List.take_left, List.drop_left]

/-- Bytes that decode are a frame's bytes and those left over, but for bit 6, which receipt ignores (R276). -/
theorem decode_eq_ok {idc len : Byte} {bytes rest : List Byte} (hdecode : decode r (idc :: len :: bytes) = .ok (i, rest)) :
    idc.getLsbD 7 = false ∧ ∃ payload : List Byte, payload.length = len.toNat ∧ bytes = payload ++ rest ∧
      i = decodeId r (idOf idc) payload := by
  simp only [decode] at hdecode
  split at hdecode
  · cases hdecode
  next hunsequenced =>
  split at hdecode
  · cases hdecode
  next hlength =>
  cases hdecode
  exact ⟨by simpa using hunsequenced, bytes.take len.toNat, List.length_take_of_le (Nat.not_lt.1 hlength),
    (List.take_append_drop ..).symm, rfl⟩

/-! ### The obligations -/

/-- Settles O1: a well-formed frame instruction's id selects it, and its length byte holds its payload's length. -/
theorem decodeInvertsEncode : Obligations.DecodeInvertsEncode := by
  intro r i bytes rest hr hwf hencode
  obtain ⟨⟨id, p⟩, hframe, rfl⟩ := Option.map_eq_some_iff.1 hencode
  rw [Instr.wf_of_frame? hframe, Bool.and_eq_true, decide_eq_true_eq] at hwf
  obtain ⟨hid, hp⟩ := hwf
  rw [decode_frameBytes_append hp, decodeId_of_frame? hr hid hframe]

/-- Settles O2: the instruction carries the id and the payload it was decoded from, and its length byte is the one read. -/
theorem encodeInvertsDecode : Obligations.EncodeInvertsDecode := by
  intro r idc len bytes rest i _ h6 hdecode
  obtain ⟨h7, p, hlength, rfl, rfl⟩ := decode_eq_ok hdecode
  obtain ⟨hframe, hid⟩ := decodeId_carries r (idOf idc) p
  have hp : p.length ≤ Config.maxPayload := hlength ▸ Nat.le_of_lt_succ len.isLt
  refine ⟨by rw [Instr.wf_of_frame? hframe, hid]; exact decide_eq_true hp, frameBytes (idOf idc) p, ?_, ?_⟩
  · rw [encode, hframe, Option.map_some]
  · rw [frameBytes, idByte_idOf h7 h6, hlength, BitVec.ofNat_toNat, BitVec.setWidth_eq]
    rfl

/-- Settles O4: each is the encoding of its instruction (R101, R106, R273). -/
theorem specFramesDecode : Obligations.SpecFramesDecode := by
  intro r hr
  have hread : ∀ {i : Instr} {bytes : List Byte}, i.wf r = true → encode r i = some bytes → decode r bytes = .ok (i, []) :=
    fun {i bytes} hwf hencode => by simpa using decodeInvertsEncode r i bytes [] hr hwf hencode
  exact ⟨hread rfl rfl, hread rfl rfl, hread rfl rfl, hread rfl rfl, hread rfl rfl, hread rfl rfl⟩

end Sys2Proof

namespace Sys2Proof.Machine

/-! ### The handler an id selects (R220) -/

namespace State

variable {s : State} {id : FrameId}

/-- `ID_RESET` is none of the named ids (R8). -/
theorem ne_idReset_of_named (hid : id ∈ Config.takenIds) : id ≠ s.params.idReset :=
  fun h => s.params.idReset_free (h ▸ hid)

theorem handle_idReset (p : List Byte) : s.handle s.params.idReset p = s.hReset := by
  have hping : s.params.idReset ≠ 0x01 := (ne_idReset_of_named (by decide)).symm
  simp only [handle, if_neg hping, if_true]

/-- An id no row names is answered as unknown (R234). -/
theorem handle_of_unnamed (hid : unnamedId s.params.idReset id = true) (p : List Byte) :
    s.handle id p = s.unknownReply id := by
  simp_all [handle, Config.takenIds]

end State

/-- `exec` of a frame instruction is the handler that `dispatch` selects by its id (R101 to R105, R220). -/
theorem exec_eq_handle {i : Instr} {s : State} {id : FrameId} {p : List Byte} (hid : i.idOk s.params.idReset = true)
    (hframe : i.frame? s.params.idReset = some (id, p)) : exec i s = .next (s.handle id p) := by
  cases i with
  | reset => cases hframe; exact congrArg _ (State.handle_idReset p).symm
  | unrecognized => cases hframe; exact congrArg _ (State.handle_of_unnamed hid p).symm
  | ping | getConfig | saveConfig | clearConfig | loadBinary | startStream | stopStream | setOutput | getCapabilities
  | loadConfigReserved | configAckReserved | pong | configData | flashAck | clearConfigAck | binaryAck | data | outputAck
  | capabilities | ack | nack =>
    cases hframe
    rw [State.handle, if_neg (State.ne_idReset_of_named (s := s) (by decide))]
    rfl
  | _ => cases hframe

/-- Two readings of the id agree: the decoder's instruction and the dispatcher's handler (R105, R220). -/
theorem exec_decodeId (s : State) (id : FrameId) (p : List Byte) :
    exec (decodeId s.params.idReset id p) s = .next (s.handle id p) := by
  obtain ⟨hframe, hid⟩ := decodeId_carries s.params.idReset id p
  exact exec_eq_handle hid hframe

/-- Settles O38: `dispatch` hands the handler its own state with `dispatch` waiting, and decoding selects that handler. -/
theorem dispatchRunsDecodedHandler : Obligations.DispatchRunsDecodedHandler :=
  fun s id p => ⟨⟨_, rfl⟩, (exec_decodeId (s.push (.awaiting .dispatch)) id p).symm⟩

/-- Settles O3: what an id decodes to is the handler's run, which completes. -/
theorem everyIdCompletes : Obligations.EveryIdCompletes := fun id p s => ⟨_, exec_decodeId s id p⟩

end Sys2Proof.Machine

/-! ## A change of one byte changes the CRC-32 (R150 to R152)

The register's step loses nothing: the reversed polynomial has bit 31 set, so the bit that leaves the register is the one
that comes in at the top. -/

namespace Sys2Proof.Machine

open Function (Injective)

/-! ### A fold with injective steps -/

theorem repeat_injective {α : Type} {f : α → α} (hf : Injective f) (n : Nat) : Injective (Nat.repeat f n) := by
  induction n with
  | zero => exact fun _ _ h => h
  | succ n ih => exact hf.comp ih

theorem foldl_injective {α β : Type} {f : α → β → α} (hf : ∀ b, Injective (f · b)) (l : List β) :
    Injective (l.foldl f) := by
  induction l with
  | nil => exact fun _ _ h => h
  | cons b l ih => exact ih.comp (hf b)

/-- A step that is injective in the register and in the byte tells two byte strings apart that differ in one byte. -/
theorem foldl_ne_of_one_byte {α β : Type} {f : α → β → α} (hreg : ∀ b, Injective (f · b)) (hbyte : ∀ c, Injective (f c))
    (c : α) (xs ys : List β) {a b : β} (hab : a ≠ b) : (xs ++ a :: ys).foldl f c ≠ (xs ++ b :: ys).foldl f c := by
  intro h
  simp only [List.foldl_append, List.foldl_cons] at h
  exact hab (hbyte _ (foldl_injective hreg ys h))

/-! ### The default CRC-32 -/

/-- The default set is reflected (R150, R151). -/
theorem crc32Bit_crc32IsoHdlc (c : U32) : crc32Bit Config.crc32IsoHdlc c =
    if c.getLsbD 0 then (c >>> 1) ^^^ 0xEDB88320 else c >>> 1 := by
  rw [← crc32IsoHdlc_poly_reverse]
  rfl

/-- The bit that leaves the register comes in at the top with the polynomial (R151). -/
theorem crc32Bit_getLsbD_top (c : U32) : (crc32Bit Config.crc32IsoHdlc c).getLsbD 31 = c.getLsbD 0 := by
  rw [crc32Bit_crc32IsoHdlc]
  cases hleft : c.getLsbD 0 <;> simp

/-- The top bit says whether the polynomial was XORed in, and the shift keeps the bits above the one that left. -/
theorem crc32Bit_injective : Injective (crc32Bit Config.crc32IsoHdlc) := by
  intro x y h
  have hleft : x.getLsbD 0 = y.getLsbD 0 := by rw [← crc32Bit_getLsbD_top, h, crc32Bit_getLsbD_top]
  have hkept : x >>> 1 = y >>> 1 := by
    simp only [crc32Bit_crc32IsoHdlc, hleft] at h
    split at h
    · exact (BitVec.xor_left_inj _).1 h
    · exact h
  refine BitVec.eq_of_getLsbD_eq fun i _ => ?_
  cases i with
  | zero => exact hleft
  | succ i => simpa [Nat.add_comm] using congrArg (·.getLsbD i) hkept

/-- A step is injective in the register with the byte XORed in (R151). -/
theorem crc32Step_eq_iff (c d : U32) (a b : Byte) :
    crc32Step Config.crc32IsoHdlc c a = crc32Step Config.crc32IsoHdlc d b ↔
      c ^^^ a.zeroExtend 32 = d ^^^ b.zeroExtend 32 :=
  (repeat_injective crc32Bit_injective 8).eq_iff

theorem crc32Step_injective_register (b : Byte) : Injective (crc32Step Config.crc32IsoHdlc · b) :=
  fun _ _ h => (BitVec.xor_left_inj _).1 ((crc32Step_eq_iff _ _ _ _).1 h)

theorem crc32Step_injective_byte (c : U32) : Injective (crc32Step Config.crc32IsoHdlc c) := by
  intro a b h
  have hoperand : a.zeroExtend 32 = b.zeroExtend 32 := (BitVec.xor_right_inj c).1 ((crc32Step_eq_iff c c a b).1 h)
  simpa using congrArg (BitVec.zeroExtend 8) hoperand

/-- The default set has one reflection, so only the final XOR is applied (R152). -/
theorem crc32Final_injective : Injective (crc32Final Config.crc32IsoHdlc) := fun _ _ h => (BitVec.xor_left_inj _).1 h

/-- Settles O15: the registers differ after the changed byte, and neither the bytes after it nor the final XOR make them
equal again. -/
theorem crc32DetectsOneByte : Obligations.Crc32DetectsOneByte := fun xs ys _ _ hab h =>
  foldl_ne_of_one_byte crc32Step_injective_register crc32Step_injective_byte _ xs ys hab (crc32Final_injective h)

/-! ### The four operations -/

/-- Settles O12: each operation hands its result over and touches only the caller's return value, and the two CRCs over
byte strings are the folds of their steps (R142, R152). -/
theorem crcOperationsComplete : Obligations.CrcOperationsComplete :=
  fun _ _ _ _ _ => ⟨rfl, rfl, rfl, rfl⟩

end Sys2Proof.Machine

/-! ## The arbiter's port operations

The ring, the batch, the reads and `feed`, each as the operation called on its own; and the watchdog's period. -/

namespace Sys2Proof.Machine

/-! ### The ring -/

namespace Ring

variable {cap : Nat} {r : Ring}

/-- A ring has no unread byte exactly when its indices agree (R36). -/
theorem unread_eq_nil_iff (h : r.ok cap) : r.unread cap = [] ↔ r.head = r.tail := by
  refine ⟨fun hnil => ?_, unread_of_empty h⟩
  have hcount : r.count cap = 0 := by rw [← length_unread, hnil, List.length_nil]
  rw [count_eq h] at hcount
  obtain ⟨-, hhead, htail⟩ := h
  split at hcount <;> omega

/-- Taking a byte leaves one unread byte less (R180). -/
theorem count_get (h : r.ok cap) (hne : r.head ≠ r.tail) : r.count cap = (r.get cap).2.count cap + 1 := by
  rw [count_eq h, count_eq (State.ring_get_ok h)]
  obtain ⟨-, hhead, htail⟩ := h
  simp only [get, wrap_eq (show r.tail + 1 < 2 * cap by omega)]
  by_cases hwrap : r.tail + 1 < cap
  · simp only [if_pos hwrap]
    split <;> split <;> omega
  · simp only [if_neg hwrap]
    split <;> split <;> omega

/-- `ring_get` takes the oldest unread byte (R180, R183). -/
theorem unread_get (h : r.ok cap) (hne : r.head ≠ r.tail) :
    r.unread cap = (r.get cap).1 :: (r.get cap).2.unread cap := by
  obtain ⟨-, -, htail⟩ := id h
  have hnext : ∀ k ∈ List.range ((r.get cap).2.count cap),
      byteAt r.buf ((r.tail + (k + 1)) % cap) = byteAt r.buf (((r.tail + 1) % cap + k) % cap) := fun k _ => by
    rw [Nat.mod_add_mod, Nat.add_assoc, Nat.add_comm 1]
  have hfirst : (r.tail + 0) % cap = r.tail := Nat.mod_eq_of_lt htail
  rw [unread, count_get h hne, List.range_succ_eq_map, List.map_cons, List.map_map, hfirst]
  exact congrArg (byteAt r.buf r.tail :: ·) (List.map_congr_left hnext)

end Ring

/-- Settles O16: the two ways of `ring_put`. -/
theorem ringPut : Obligations.RingPut := by
  intro s b hok
  refine ⟨_, _, rfl, State.ring_put_ok b hok, ?_⟩
  rcases State.ring_put_cases s.params.rxCap b s.port.rx with ⟨hfull, e⟩ | ⟨hroom, e⟩
  · rw [e]
    exact ⟨by simp [hfull], nofun, fun _ => rfl⟩
  · have hunread := Ring.unread_put hok hroom b
    rw [e] at hunread ⊢
    exact ⟨by simp [hroom], fun _ => ⟨hunread, rfl⟩, nofun⟩

/-- `ring_get` takes the oldest byte, or is refused on an empty ring (R180, log 23). -/
theorem exec_ringGet (s : State) :
    exec .ringGet s = if s.port.rx.head = s.port.rx.tail then .refused .ringGetOnEmpty
      else .next ((s.setRx (s.port.rx.get s.params.rxCap).2).setRet (.byte (s.port.rx.get s.params.rxCap).1)) := by
  simp only [exec, execRingGet, Ring.isEmpty, beq_iff_eq]

/-- Settles O17: what is taken is the oldest unread byte. -/
theorem ringGet : Obligations.RingGet := fun s hok hne =>
  ⟨_, _, (exec_ringGet s).trans (if_neg hne), State.ring_get_ok hok, rfl, Ring.unread_get hok hne⟩

/-- Settles O18: equal indices are an empty ring. -/
theorem ringGetOnEmptyRefused : Obligations.RingGetOnEmptyRefused := fun s hempty =>
  (exec_ringGet s).trans (if_pos hempty)

/-! ### The batch -/

namespace State

variable {s : State}

/-- `begin_send` with a batch in flight: the caller joins `tx.rejected`, and nothing else changes (R171). -/
theorem beginBatch_of_inProgress (hprogress : s.port.tx.inProgress = true) :
    ∃ x, s.beginBatch = (s.setTx x, false) ∧ x.buf = s.port.tx.buf ∧ x.inProgress = true ∧
      x.owner = s.port.tx.owner ∧ ∀ c, x.rejected c = (s.port.tx.rejected c || decide (c = s.ctx)) := by
  rcases beginBatch_cases (s := s) with ⟨-, hbusy, m, i, hstate, hm, hi⟩ | ⟨hnone, -⟩
  · refine ⟨_, Prod.ext hstate hbusy, rfl, hprogress, rfl, fun c => ?_⟩
    cases c <;> cases hctx : s.ctx <;> simp [TxBatch.rejected, hm, hi, hctx]
  · rw [hprogress] at hnone
    cases hnone

/-- `begin_send` without one: the caller owns an empty batch (R171). -/
theorem beginBatch_of_free (hfree : s.port.tx.inProgress = false) :
    s.beginBatch = (s.setTx { s.port.tx with buf := [], inProgress := true, owner := some s.ctx }, true) := by
  rcases beginBatch_cases (s := s) with ⟨hprogress, -⟩ | ⟨-, e⟩
  · rw [hfree] at hprogress
    cases hprogress
  · exact e

/-- A context that does not own the batch, or that got BUSY for it, is foreign to it (R173, R175). -/
theorem foreign_of_not_owner {x : TxBatch} {c : Ctx} (h : x.owner ≠ some c ∨ x.rejected c = true) :
    x.foreign c = true := by
  rw [← Bool.not_eq_false, foreign_eq_false_iff]
  rintro ⟨howner, hrejected⟩
  rcases h with h | h
  · exact h howner
  · rw [hrejected] at h
    cases h

/-- A fault that is raised where none was recorded stops the step (R43). -/
theorem settle_raise (hfault : s.fault = none) (k : Fault) : (s.raise k).settle = .fault k := by
  rw [settle_eq_fault_iff, raise_fault, hfault, Option.getD_none]

/-- `append_byte` of the owner: stored with room left, else dropped (R173). -/
theorem appendToBatch_of_owner (hprogress : s.port.tx.inProgress = true)
    (howner : s.port.tx.foreign s.ctx = false) (b : Byte) :
    s.appendToBatch b =
      if s.port.tx.len = s.params.txCap then s else s.setTx { s.port.tx with buf := s.port.tx.buf ++ [b] } := by
  simp only [appendToBatch, hprogress, howner, Bool.not_true, Bool.false_eq_true, if_false]

/-- The owner's empty batch ends at once (R176, D6). -/
theorem endSendEntry_of_empty (hprogress : s.port.tx.inProgress = true) (howner : s.port.tx.foreign s.ctx = false)
    (hempty : s.port.tx.buf = []) :
    s.endSendEntry = if s.port.rxBusy then s.setTx TxBatch.reset
      else ((s.setTx TxBatch.reset).setRxBusy true).push (.endSend .drain) := by
  have hlen : s.port.tx.len = 0 := List.length_eq_zero_iff.2 hempty
  simp only [endSendEntry, hprogress, howner, hlen, finishBatch_eq, hempty]
  cases s.port.rxBusy <;> rfl

end State

/-- Settles O20: the two answers of `begin_send`. -/
theorem beginSend : Obligations.BeginSend := by
  refine fun s => ⟨fun hfree => ?_, fun hprogress => ?_⟩
  · simp only [exec, execBeginSend, State.beginBatch_of_free hfree]
  · obtain ⟨x, e, hx⟩ := State.beginBatch_of_inProgress hprogress
    exact ⟨x, by simp only [exec, execBeginSend, e], hx⟩

/-- Settles O21: no batch, a foreign one, the caller's own. -/
theorem appendByte : Obligations.AppendByte := by
  refine fun s b hfault => ⟨fun hfree => ?_, fun hprogress hforeign => ?_, fun hprogress howner hrejected => ?_⟩
  · have happend : s.appendToBatch b = s := by simp [State.appendToBatch, hfree]
    exact (congrArg State.settle happend).trans (State.settle_of_none hfault)
  · have happend : s.appendToBatch b = s.raise .txForeignBatch := by
      simp [State.appendToBatch, hprogress, State.foreign_of_not_owner hforeign]
    exact (congrArg State.settle happend).trans (State.settle_raise hfault _)
  · have happend := State.appendToBatch_of_owner hprogress ((State.foreign_eq_false_iff _ _).2 ⟨howner, hrejected⟩) b
    refine (congrArg State.settle happend).trans (State.settle_of_none ?_)
    split <;> exact hfault

/-- Settles O22: the entry check comes before anything is sent. -/
theorem endSendEntryCheck : Obligations.EndSendEntryCheck := by
  refine fun s hfault => ⟨fun hfree => ?_, fun hprogress hforeign => ?_⟩
  · have hentry : s.endSendEntry = s := by simp [State.endSendEntry, hfree]
    exact (congrArg State.settle hentry).trans (State.settle_of_none hfault)
  · have hentry : s.endSendEntry = s.raise .txForeignBatch := by
      simp [State.endSendEntry, hprogress, State.foreign_of_not_owner hforeign]
    exact (congrArg State.settle hentry).trans (State.settle_raise hfault _)

/-- Settles O24: the owner's batch without a byte is over in the entry's own step. -/
theorem endSendWithoutBytes : Obligations.EndSendWithoutBytes := by
  intro s hfault hprogress howner hrejected hempty
  have hentry := State.endSendEntry_of_empty hprogress ((State.foreign_eq_false_iff _ _).2 ⟨howner, hrejected⟩) hempty
  refine (congrArg State.settle hentry).trans (State.settle_of_none ?_)
  split <;> exact hfault

/-! ### The reads, feed, the watchdog -/

/-- Settles O28: each read hands its value over and touches only the caller's return value (R174, R187). -/
theorem spaceAndClockReads : Obligations.SpaceAndClockReads := fun _ => ⟨rfl, rfl⟩

/-- `feed`'s first step: the byte is deferred, or the guard is taken and the byte polled (R185). -/
theorem exec_feed (b : Byte) (s : State) :
    exec (.feed b) s = .next (if s.port.tx.inProgress || s.port.rxBusy then s.ringPut b
      else (s.setRxBusy true).setStack (.poll b :: .feed :: s.stack)) := by
  simp only [exec, execFeed, State.feedEntry, State.push_eq, State.setStack_stack, State.setStack_setStack,
    State.setRxBusy_stack]

/-- Settles O29: the batch in progress and the guard decide. -/
theorem feedDefersOrPolls : Obligations.FeedDefersOrPolls := by
  refine fun s b => ⟨fun hbusy => ?_, fun hfree hguard => ?_⟩
  · rw [exec_feed, if_pos (by simpa using hbusy)]
    rfl
  · rw [exec_feed, if_neg (by simp [hfree, hguard])]

/-- Settles O55: the period's end is the one boundary in the passing of time (R338). -/
theorem watchdogExpires : Obligations.WatchdogExpires := by
  intro s ms rest hfault hsched
  refine (step_of_act hfault hsched rfl (by simp)).trans (congrArg Host.Outcome.next ?_)
  by_cases hshort : s.wdt + ms < s.params.wdtTimeoutMs
  · rw [if_pos hshort]
    exact if_neg (Nat.not_le.2 hshort)
  · rw [if_neg hshort]
    exact if_pos (Nat.not_lt.1 hshort)

end Sys2Proof.Machine

/-! ## The steps of the drain loop and of the wait for the UART -/

namespace Sys2Proof.Machine

namespace State

variable {s t : State} {a : Activation} {l : List Activation} {rest : List Event}

/-- Stack updates commute with updates of the guard. -/
theorem setStack_setRxBusy (l : List Activation) (x : Bool) :
    (s.setStack l).setRxBusy x = (s.setRxBusy x).setStack l := by
  unfold setStack setRxBusy Port.setContext Port.context; cases s.ctx <;> rfl

/-- With an empty schedule too the innermost activation of the running context takes its step (R13, R81). -/
theorem step_of_no_event (hfault : s.fault = none) (hsched : s.schedule = [])
    (hstack : (s.port.context s.port.running).stack = a :: l) (hframe : ∀ b, a ≠ .dispatch b) :
    step s = (s.setCtx s.port.running).advance.settle := by
  have htop : (s.enter s.port.running).stack = a :: l := hstack
  rcases runMove_cases s with ⟨b, l', hb, -⟩ | ⟨-, hmove⟩
  · exact absurd (List.cons_eq_cons.1 (htop.symm.trans hb)).1 (hframe b)
  · simp only [step, hfault, nextMove, hsched, hmove]
    rfl

/-! ### The drain loop -/

/-- The four operations whose innermost step is the drain loop's (R177, R185, R186, R310). -/
theorem advance_of_drains (hstack : s.stack = a :: l)
    (ha : a = .feed ∨ a = .tick .drain ∨ a = .endSend .drain ∨ a = .drain) : s.advance = s.stepDrain := by
  unfold advance
  rcases ha with rfl | rfl | rfl | rfl <;> rw [hstack]

/-- The drain loop on an empty ring releases the guard and returns (R186). -/
theorem stepDrain_of_empty (hok : s.port.rx.ok s.params.rxCap) (hstack : s.stack = a :: l)
    (hempty : s.port.rx.unread s.params.rxCap = []) :
    s.stepDrain = (s.setRxBusy false).setStack (l.dropWhile Activation.isAwaiting) := by
  rcases stepDrain_cases (s := s) with ⟨-, e⟩ | ⟨hne, -⟩
  · rw [e, leave_eq, setRxBusy_stack, hstack, List.tail_cons]
  · exact absurd ((Ring.unread_eq_nil_iff hok).1 hempty) hne

/-- The drain loop on a ring with bytes takes the oldest one and polls it (R186). -/
theorem stepDrain_of_bytes {b : Byte} {us : List Byte} (hok : s.port.rx.ok s.params.rxCap) (hstack : s.stack = a :: l)
    (hbytes : s.port.rx.unread s.params.rxCap = b :: us) :
    ∃ r, s.stepDrain = (s.setRx r).setStack (.poll b :: a :: l) ∧ r.ok s.params.rxCap ∧
      r.unread s.params.rxCap = us := by
  rcases stepDrain_cases (s := s) with ⟨hempty, -⟩ | ⟨hne, e⟩
  · rw [Ring.unread_of_empty hok hempty] at hbytes
    cases hbytes
  · obtain ⟨rfl, rfl⟩ := List.cons_eq_cons.1 (hbytes.symm.trans (Ring.unread_get hok hne))
    exact ⟨_, by rw [e, push_eq, setRx_stack, hstack], ring_get_ok hok, rfl⟩

/-! ### The wait -/

/-- A wait for TXE that stays false, with nothing to capture, changes nothing (R416). -/
theorem stepTxByte_of_silent (i : Nat) (hrxne : s.port.uart.rxne = false) (htxe : s.port.uart.txe = false) :
    s.stepTxByte i = s := by
  simp only [stepTxByte, rxCapture_of_not_rxne hrxne, htxe, Bool.false_eq_true, if_false]

/-- So does a wait for TC that stays false (R416). -/
theorem stepTxTc_of_silent (hrxne : s.port.uart.rxne = false) (htc : s.port.uart.tc = false) : s.stepTxTc = s := by
  simp only [stepTxTc, rxCapture_of_not_rxne hrxne, htc, Bool.false_eq_true, if_false]

/-- What comes after the receive poll in a wait iteration leaves the ring and RXNE as the poll left them (R176). -/
theorem stepTxByte_received (i : Nat) : (s.stepTxByte i).port.rx = s.rxCapture.port.rx ∧
    (s.stepTxByte i).port.uart.rxne = s.rxCapture.port.uart.rxne := by
  unfold stepTxByte
  simp only
  split <;> exact ⟨rfl, rfl⟩

theorem stepTxTc_received : s.stepTxTc.port.rx = s.rxCapture.port.rx ∧
    s.stepTxTc.port.uart.rxne = s.rxCapture.port.uart.rxne := by
  simp only [stepTxTc, finishBatch_eq]
  cases s.rxCapture.port.rxBusy <;> simp only [Bool.not_true, Bool.not_false] <;> split <;> exact ⟨rfl, rfl⟩

/-- The receive poll with a byte held: the ring takes it, and RXNE falls (R45, R176). -/
theorem rxCapture_of_rxne (hrxne : s.port.uart.rxne = true) :
    s.rxCapture.port.rx = (s.port.rx.put s.params.rxCap s.port.uart.rdr).1 ∧ s.rxCapture.port.uart.rxne = false := by
  rw [rxCapture_eq, if_pos hrxne]
  exact ⟨rfl, rfl⟩

end State

/-- Settles O30: the call pushes the loop and takes its first step; under each operation that drains, the step is the
loop's. -/
theorem drainAndRelease : Obligations.DrainAndRelease := by
  refine ⟨fun s hok => ?_, fun s a l hfault hsched hstack ha hok => ?_⟩
  · have hpushed : (s.push .drain).stack = .drain :: s.stack := State.setStack_stack ..
    refine ⟨fun hempty => congrArg Host.Outcome.next ?_, fun b us hbytes => ?_⟩
    · rw [State.stepDrain_of_empty (s := s.push .drain) hok hpushed hempty, State.push_eq, State.setStack_setRxBusy,
        State.setStack_setStack]
    · obtain ⟨r, e, hr⟩ := State.stepDrain_of_bytes (s := s.push .drain) hok hpushed hbytes
      rw [State.push_eq, State.setStack_setRx, State.setStack_setStack] at e
      exact ⟨r, congrArg Host.Outcome.next e, hr⟩
  · have htop : (s.setCtx s.port.running).stack = a :: l := hstack
    have hstep : step s = (s.setCtx s.port.running).stepDrain.settle := by
      rw [State.step_of_no_event hfault hsched hstack (by rcases ha with rfl | rfl | rfl | rfl <;> simp),
        State.advance_of_drains htop ha]
    refine ⟨fun hempty => ?_, fun b us hbytes => ?_⟩
    · rw [hstep, State.stepDrain_of_empty (s := s.setCtx s.port.running) hok htop hempty]
      exact State.settle_of_none hfault
    · obtain ⟨r, e, hr⟩ := State.stepDrain_of_bytes (s := s.setCtx s.port.running) hok htop hbytes
      refine ⟨r, ?_, hr⟩
      rw [hstep, e]
      exact State.settle_of_none hfault

/-- A step of the wait on a silent UART only names the running context (R416). -/
theorem State.step_of_silent {s : State} {ph : SendPhase} {l : List Activation} (hfault : s.fault = none)
    (hsched : s.schedule = []) (hstack : (s.port.context s.port.running).stack = .endSend ph :: l)
    (hrxne : s.port.uart.rxne = false)
    (hsilent : (∃ i, ph = .txByte i ∧ s.port.uart.txe = false) ∨ (ph = .txTc ∧ s.port.uart.tc = false)) :
    step s = .next (s.setCtx s.port.running) := by
  have htop : (s.setCtx s.port.running).stack = .endSend ph :: l := hstack
  have hadvance : (s.setCtx s.port.running).advance = s.setCtx s.port.running := by
    rcases hsilent with ⟨i, rfl, htxe⟩ | ⟨rfl, htc⟩
    · exact (State.advance_of_txByte htop).trans (State.stepTxByte_of_silent i hrxne htxe)
    · exact (State.advance_of_txTc htop).trans (State.stepTxTc_of_silent hrxne htc)
  rw [State.step_of_no_event hfault hsched hstack (by simp), hadvance]
  exact State.settle_of_none hfault

/-- Settles O26: by induction on the steps, each of which leaves the port as it is. -/
theorem silentUartMeansWaiting : Obligations.SilentUartMeansWaiting := by
  intro s ph l n hfault hsched hstack hrxne hsilent
  induction n generalizing s with
  | zero => exact ⟨s, rfl, rfl, hsched, hfault⟩
  | succ n ih =>
    obtain ⟨t, hrun, ht⟩ := ih (s.setCtx s.port.running) hfault hsched hstack hrxne hsilent
    exact ⟨t, (runSteps_succ (State.step_of_silent hfault hsched hstack hrxne hsilent) n).trans hrun, ht⟩

/-- Settles O27: both wait iterations begin with the receive poll. -/
theorem waitCapturesReceivedByte : Obligations.WaitCapturesReceivedByte := by
  intro s t ph l hfault hsched hstack hphase hrxne hstep
  rw [State.step_of_no_event hfault hsched hstack (by simp)] at hstep
  obtain ⟨-, rfl⟩ := State.settle_eq_next_iff.1 hstep
  have htop : (s.setCtx s.port.running).stack = .endSend ph :: l := hstack
  obtain ⟨hring, hflag⟩ := State.rxCapture_of_rxne (s := s.setCtx s.port.running) hrxne
  cases ph with
  | txByte i =>
    rw [State.advance_of_txByte htop]
    exact ⟨(State.stepTxByte_received i).1.trans hring, (State.stepTxByte_received i).2.trans hflag⟩
  | txTc =>
    rw [State.advance_of_txTc htop]
    exact ⟨State.stepTxTc_received.1.trans hring, State.stepTxTc_received.2.trans hflag⟩
  | drain => exact absurd rfl hphase

end Sys2Proof.Machine

/-! ## A frame that the transport sends is on the wire when the send returns

The transmit sequence fills a batch of its own (`Transmitting`); `end_send` hands it to the UART (`Leaving`), and the way
of the bytes from there on is O25's. -/

namespace Sys2Proof.Machine

/-- The batch of context `c` with the bytes `w`, nobody rejected for it (R33, R34). -/
def TxBatch.owned (c : Ctx) (w : List Byte) : TxBatch :=
  { buf := w, inProgress := true, owner := some c, rejectedM := false, rejectedI := false }

theorem TxBatch.owned_not_foreign (c : Ctx) (w : List Byte) : (TxBatch.owned c w).foreign c = false :=
  (State.foreign_eq_false_iff _ _).2 ⟨rfl, by cases c <;> rfl⟩

/-- A frame takes more than one byte on the wire: three for SOF, one for EOF (R273). -/
theorem one_lt_length_minWire (q : Config.Crc32Params) (f : TxFrame) : 1 < (minWire q f).length := by
  simp only [minWire, List.length_append, List.length_cons]
  omega

namespace State

variable {s : State} {f : TxFrame} {b : Byte} {w bs : List Byte} {l : List Activation} {rest : List Event}

/-! ### The transmit sequence -/

/-- The space test: the send returns without the space, else it begins a batch (R275). -/
theorem advance_of_spaceTest (hstack : s.stack = .transmit (.spaceTest f) :: l) :
    s.advance = s.setStack (
      if s.port.tx.space s.params.txCap < f.payload.length + wireOverhead s.params then l.dropWhile Activation.isAwaiting
      else .transmit (.beginBatch f) :: l) := by
  unfold advance
  rw [hstack]
  simp only [stepTransmit, leave_eq, replaceTop_eq, hstack, List.tail_cons]
  split <;> rfl

/-- Without a batch in flight the send begins its own, and the frame's wire bytes are next (R171, R275). -/
theorem advance_of_beginBatch_free (hstack : s.stack = .transmit (.beginBatch f) :: l)
    (hfree : s.port.tx.inProgress = false) :
    s.advance = (s.setTx { s.port.tx with buf := [], inProgress := true, owner := some s.ctx }).setStack
      (.transmit (.appendBytes (wireBytes s.params f)) :: l) := by
  unfold advance
  rw [hstack]
  simp only [stepTransmit, beginBatch_of_free hfree, replaceTop_eq, setTx_stack, hstack, List.tail_cons]

/-- With a batch in flight the send is rejected for it and returns (R171, R172, R275). -/
theorem advance_of_beginBatch_busy (hstack : s.stack = .transmit (.beginBatch f) :: l)
    (hprogress : s.port.tx.inProgress = true) :
    ∃ x, s.advance = (s.setTx x).setStack (l.dropWhile Activation.isAwaiting) ∧ x.buf = s.port.tx.buf ∧
      x.inProgress = true ∧ x.owner = s.port.tx.owner ∧
      ∀ c, x.rejected c = (s.port.tx.rejected c || decide (c = s.ctx)) := by
  obtain ⟨x, e, hx⟩ := beginBatch_of_inProgress hprogress
  refine ⟨x, ?_, hx⟩
  unfold advance
  rw [hstack]
  simp only [stepTransmit, e, leave_eq, setTx_stack, hstack, List.tail_cons]

/-- One byte of the frame is appended to the owner's batch while it has room (R173, R275). -/
theorem advance_of_appendBytes (hstack : s.stack = .transmit (.appendBytes (b :: bs)) :: l)
    (htx : s.port.tx = .owned s.ctx w) (hroom : w.length < s.params.txCap) :
    s.advance = (s.setTx (.owned s.ctx (w ++ [b]))).setStack (.transmit (.appendBytes bs) :: l) := by
  have happend : s.appendToBatch b = s.setTx (.owned s.ctx (w ++ [b])) := by
    rw [appendToBatch_of_owner (by rw [htx]; rfl) (by rw [htx]; exact TxBatch.owned_not_foreign ..), htx]
    exact if_neg (Nat.ne_of_lt hroom)
  unfold advance
  rw [hstack]
  simp only [stepTransmit, happend, replaceTop_eq, setTx_stack, hstack, List.tail_cons]

/-- `end_send` of the owner's batch of more than one byte, with no byte to capture: a UART that is ready takes the first
byte at once (R176). -/
theorem endSendEntry_of_owned (htx : s.port.tx = .owned s.ctx w) (hlen : 1 < w.length)
    (hrxne : s.port.uart.rxne = false) :
    s.endSendEntry =
      if s.port.uart.txe then (s.uartWrite (byteAt w 0)).setStack (.endSend (.txByte 1) :: s.stack)
      else s.setStack (.endSend (.txByte 0) :: s.stack) := by
  have hbytes : s.port.tx.buf ≠ [] := by
    rw [htx]
    exact List.ne_nil_of_length_pos (Nat.zero_lt_of_lt hlen)
  have hsecond : 0 + 1 < s.port.tx.len := by
    rw [htx]
    exact hlen
  rw [endSendEntry_of_bytes (by rw [htx]; rfl) (by rw [htx]; exact TxBatch.owned_not_foreign ..) hbytes,
    stepTxByte_push, rxCapture_of_not_rxne hrxne, if_pos hsecond, htx]
  rfl

/-- With all bytes appended `end_send` begins, the send waiting below it (R176, R275). -/
theorem advance_of_appended (hstack : s.stack = .transmit (.appendBytes []) :: l) (htx : s.port.tx = .owned s.ctx w)
    (hlen : 1 < w.length) (hrxne : s.port.uart.rxne = false) :
    s.advance =
      if s.port.uart.txe then
        (s.uartWrite (byteAt w 0)).setStack (.endSend (.txByte 1) :: .awaiting .send :: l)
      else s.setStack (.endSend (.txByte 0) :: .awaiting .send :: l) := by
  have hentry := endSendEntry_of_owned (s := s.setStack (.awaiting .send :: l)) htx hlen hrxne
  rw [setStack_uart, setStack_stack, uartWrite_setStack, setStack_setStack, setStack_setStack] at hentry
  unfold advance
  rw [hstack]
  simp only [stepTransmit, replaceTop_eq, hstack, List.tail_cons, hentry, unwind_eq]
  split <;> rw [setStack_stack, setStack_setStack] <;> rfl

/-! ### Filling the batch -/

/-- The running context `c` is at point `ph` of the transmit sequence, over `l`, with the guard held: under the parameters
`p`, with the UART at `u` and the batch at `x` (R275). -/
structure Transmitting (s : State) (c : Ctx) (p : Config.Params) (u : Uart) (x : TxBatch) (ph : TransmitPhase)
    (l : List Activation) : Prop where
  fault : s.fault = none
  running : s.port.running = c
  params : s.params = p
  uart : s.port.uart = u
  tx : s.port.tx = x
  guard : s.port.rxBusy = true
  stack : (s.port.context c).stack = .transmit ph :: l

variable {c : Ctx} {p : Config.Params} {u : Uart} {x x' : TxBatch} {ph ph' : TransmitPhase}

/-- A step inside the sequence, which writes the batch and moves to the next point. -/
theorem Transmitting.step_to (h : s.Transmitting c p u x ph l) (hsched : s.schedule = .advance :: rest)
    (hadvance : ∀ v : State, v.ctx = c → v.params = p → v.port.tx = x → v.stack = .transmit ph :: l →
      v.advance = (v.setTx x').setStack (.transmit ph' :: l)) :
    ∃ t, step s = .next t ∧ t.Transmitting c p u x' ph' l ∧ t.schedule = rest := by
  obtain ⟨hfault, rfl, hparams, huart, htx, hguard, hstack⟩ := h
  let v := (s.setSchedule rest).setCtx s.port.running
  have hrunning := running_setStack (s := v.setTx x') (a := .transmit ph') (l := l) rfl
  refine ⟨(v.setTx x').setStack (.transmit ph' :: l), ?_,
    ⟨hfault, hrunning, hparams, huart, rfl, hguard, setStack_stack _ _⟩, rfl⟩
  rw [step_of_advance hfault hsched hstack (by simp), hadvance v rfl hparams htx hstack]
  exact settle_of_none hfault

/-- With the space it asks for the send goes on to its batch (R275). -/
theorem Transmitting.spaceTest (h : s.Transmitting c p u x (.spaceTest f) l) (hsched : s.schedule = .advance :: rest)
    (hspace : f.payload.length + wireOverhead p ≤ x.space p.txCap) :
    ∃ t, step s = .next t ∧ t.Transmitting c p u x (.beginBatch f) l ∧ t.schedule = rest := by
  refine h.step_to hsched fun v _ hparams htx hstack => ?_
  subst hparams htx
  rw [advance_of_spaceTest hstack, if_neg (Nat.not_lt.2 hspace)]
  rfl

/-- A batch nobody is in begins as the send's own (R171). -/
theorem Transmitting.beginBatch (h : s.Transmitting c p u x (.beginBatch f) l) (hsched : s.schedule = .advance :: rest)
    (hfree : x.inProgress = false) (hrejectedM : x.rejectedM = false) (hrejectedI : x.rejectedI = false) :
    ∃ t, step s = .next t ∧ t.Transmitting c p u (.owned c []) (.appendBytes (wireBytes p f)) l ∧ t.schedule = rest := by
  refine h.step_to hsched fun v hctx hparams htx hstack => ?_
  subst hctx hparams htx
  rw [advance_of_beginBatch_free hstack hfree]
  simp only [hrejectedM, hrejectedI]
  rfl

/-- One step appends one byte. -/
theorem Transmitting.append (h : s.Transmitting c p u (.owned c w) (.appendBytes (b :: bs)) l)
    (hsched : s.schedule = .advance :: rest) (hroom : w.length < p.txCap) :
    ∃ t, step s = .next t ∧ t.Transmitting c p u (.owned c (w ++ [b])) (.appendBytes bs) l ∧ t.schedule = rest := by
  refine h.step_to hsched fun v hctx hparams htx hstack => ?_
  subst hctx hparams
  exact advance_of_appendBytes hstack htx hroom

/-- As many steps append all of them, in order. -/
theorem Transmitting.appendAll (h : s.Transmitting c p u (.owned c w) (.appendBytes bs) l)
    (hsched : s.schedule = List.replicate bs.length .advance ++ rest) (hroom : w.length + bs.length ≤ p.txCap) :
    ∃ t, (∀ n, runSteps (n + bs.length) s = runSteps n t) ∧
      t.Transmitting c p u (.owned c (w ++ bs)) (.appendBytes []) l ∧ t.schedule = rest := by
  induction bs generalizing s w with
  | nil => exact ⟨s, fun _ => rfl, by rwa [List.append_nil], hsched⟩
  | cons b bs ih =>
    rw [List.length_cons] at hroom
    obtain ⟨t, hstep, ht, hsched'⟩ := h.append hsched (by omega)
    obtain ⟨v, hrun, hv, hrest⟩ := ih ht hsched' (by rw [List.length_append, List.length_singleton]; omega)
    rw [List.append_assoc, List.singleton_append] at hv
    exact ⟨v, fun n => (runSteps_succ hstep (n + bs.length)).trans (hrun n), hv, hrest⟩

/-! ### Handing it to the UART -/

/-- The running context `c` waits in the `end_send` of its send for the turn of byte `i` of the batch `w`, with the guard
held and no byte to capture; the UART got the bytes before it, after `sent` (R176). -/
structure Leaving (s : State) (c : Ctx) (sent w : List Byte) (i : Nat) (l : List Activation) : Prop where
  fault : s.fault = none
  running : s.port.running = c
  rxne : s.port.uart.rxne = false
  sent : s.port.uart.sent = sent ++ w.take i
  tx : s.port.tx = .owned c w
  guard : s.port.rxBusy = true
  stack : (s.port.context c).stack = .endSend (.txByte i) :: .awaiting .send :: l

/-- The step of `end_send`'s entry: a UART that is ready has the first byte after it. -/
theorem Transmitting.endSend (h : s.Transmitting c p u (.owned c w) (.appendBytes []) l)
    (hsched : s.schedule = .advance :: rest) (hlen : 1 < w.length) (hrxne : u.rxne = false) :
    ∃ t, step s = .next t ∧ t.Leaving c u.sent w (if u.txe then 1 else 0) l ∧ t.schedule = rest := by
  obtain ⟨hfault, rfl, -, rfl, htx, hguard, hstack⟩ := h
  let v := (s.setSchedule rest).setCtx s.port.running
  have hstep := step_of_advance hfault hsched hstack (by simp)
  rw [advance_of_appended (s := v) hstack htx hlen hrxne] at hstep
  have hready : v.port.uart.txe = s.port.uart.txe := rfl
  cases htxe : s.port.uart.txe <;> rw [hready, htxe] at hstep
  · have hrunning := running_setStack (s := v) (a := .endSend (.txByte 0)) (l := .awaiting .send :: l) rfl
    exact ⟨_, hstep.trans (settle_of_none hfault),
      ⟨hfault, hrunning, hrxne, (List.append_nil _).symm, htx, hguard, setStack_stack _ _⟩, rfl⟩
  · have hrunning := running_setStack (s := v.uartWrite (byteAt w 0)) (a := .endSend (.txByte 1))
      (l := .awaiting .send :: l) rfl
    have hfirst : [byteAt w 0] = w.take 1 := by
      cases w with
      | nil => cases hlen
      | cons b bs => rfl
    exact ⟨_, hstep.trans (settle_of_none hfault),
      ⟨hfault, hrunning, hrxne, congrArg (s.port.uart.sent ++ ·) hfirst, htx, hguard, setStack_stack _ _⟩, rfl⟩

/-- From there on the rest of the batch leaves, and the send returns with `end_send` (R176, R177, R221). -/
theorem Leaving.finish {sent : List Byte} {i : Nat} (h : s.Leaving c sent w i l) (hi : i < w.length)
    (hsched : s.schedule = batchEvents (w.length - i) ++ rest) :
    ∃ t, runSteps (2 * (w.length - i) + 2) s = .next t ∧ t.port.uart.sent = sent ++ w ∧ t.schedule = rest ∧
      t.port.tx.inProgress = false ∧ t.port.rxBusy = true ∧
      (t.port.context c).stack = l.dropWhile Activation.isAwaiting := by
  obtain ⟨hfault, rfl, hrxne, hsent, htx, hguard, hstack⟩ := h
  have hlen : s.port.tx.len = w.length := congrArg TxBatch.len htx
  have hbuf : s.port.tx.buf = w := congrArg TxBatch.buf htx
  obtain ⟨t, hrun, hout, hrest, hbatch, hheld, -, hreturned⟩ :=
    batchLeavesInOrder s i _ rest hfault (hlen.symm ▸ hi) hstack hrxne (hlen.symm ▸ hsched)
  rw [hlen] at hrun
  rw [hsent, hbuf, List.append_assoc, List.take_append_drop] at hout
  rw [if_pos hguard] at hreturned
  exact ⟨t, hrun, hout, hrest, hbatch, hheld, hreturned⟩

/-- The whole send: space test, batch, bytes, `end_send` (R221, R275). -/
theorem Transmitting.send (h : s.Transmitting c p u x (.spaceTest f) l) (hfree : x.inProgress = false)
    (hrejectedM : x.rejectedM = false) (hrejectedI : x.rejectedI = false) (hrxne : u.rxne = false)
    (hspace : f.payload.length + wireOverhead p ≤ p.txCap) (hlen : 1 < (wireBytes p f).length)
    (hroom : (wireBytes p f).length ≤ p.txCap) {k : Nat}
    (hk : k = (wireBytes p f).length - if u.txe then 1 else 0)
    (hsched : s.schedule = List.replicate ((wireBytes p f).length + 3) .advance ++ batchEvents k ++ rest) :
    ∃ t, runSteps ((wireBytes p f).length + 3 + (2 * k + 2)) s = .next t ∧
      t.port.uart.sent = u.sent ++ wireBytes p f ∧ t.schedule = rest ∧ t.port.tx.inProgress = false ∧
      t.port.rxBusy = true ∧ (t.port.context c).stack = l.dropWhile Activation.isAwaiting := by
  have hwhole : x.space p.txCap = p.txCap := by simp [TxBatch.space, hfree]
  have hevents : List.replicate ((wireBytes p f).length + 3) Event.advance ++ batchEvents k ++ rest =
      .advance :: .advance :: (List.replicate (wireBytes p f).length .advance ++
        .advance :: (batchEvents k ++ rest)) := by
    rw [List.replicate_succ, List.replicate_succ, List.replicate_succ']
    simp only [List.append_assoc, List.cons_append, List.nil_append]
  have hfirst : (if u.txe then 1 else 0) < (wireBytes p f).length := by split <;> omega
  obtain ⟨s1, hstep1, h1, hsched1⟩ := h.spaceTest (hsched.trans hevents) (hwhole.symm ▸ hspace)
  obtain ⟨s2, hstep2, h2, hsched2⟩ := h1.beginBatch hsched1 hfree hrejectedM hrejectedI
  obtain ⟨s3, hrun3, h3, hsched3⟩ := h2.appendAll hsched2 (by rwa [List.length_nil, Nat.zero_add])
  obtain ⟨s4, hstep4, h4, hsched4⟩ := h3.endSend hsched3 hlen hrxne
  obtain ⟨t, hrun5, ht⟩ := h4.finish hfirst (hk ▸ hsched4)
  refine ⟨t, ?_, ht⟩
  calc runSteps ((wireBytes p f).length + 3 + (2 * k + 2)) s
    _ = runSteps (2 * k + 2 + 1 + (wireBytes p f).length + 1 + 1) s := congrArg (runSteps · s) (by omega)
    _ = runSteps (2 * k + 2 + 1 + (wireBytes p f).length) s2 :=
      (runSteps_succ hstep1 _).trans (runSteps_succ hstep2 _)
    _ = runSteps (2 * k + 2) s4 := (hrun3 _).trans (runSteps_succ hstep4 _)
    _ = .next t := hk ▸ hrun5

end State

/-- Settles O36: the whole send of a frame with room, and the two steps in which one is dropped. -/
theorem sentFrameIsOnTheWire : Obligations.SentFrameIsOnTheWire := by
  refine ⟨?_, fun s f l hfault hsched hstack => ⟨fun hcodec => by rw [wireOverhead, hcodec]; rfl, ?_⟩,
    fun s f l hfault hsched hstack hprogress => ?_⟩
  · intro s f l rest hfault hcodec hstack hfree hrejectedM hrejectedI hguard hrxne hspace hroom n k hsched
    have hwire : wireBytes s.params f = minWire s.params.crc32 f := by rw [wireBytes, hcodec]; rfl
    have hoverhead : wireOverhead s.params = 11 := by rw [wireOverhead, hcodec]; rfl
    have hsend : s.Transmitting s.port.running s.params s.port.uart s.port.tx (.spaceTest f) l :=
      ⟨hfault, rfl, rfl, rfl, rfl, hguard, hstack⟩
    have hk : k = n - if s.port.uart.txe then 1 else 0 := by
      simp only [k]
      split <;> rfl
    have hrun := hsend.send hfree hrejectedM hrejectedI hrxne (k := k) (rest := rest) (hoverhead.symm ▸ hspace)
    rw [hwire] at hrun
    exact hrun (one_lt_length_minWire _ _) hroom hk hsched
  · rw [State.step_of_no_event hfault hsched hstack (by simp),
      State.advance_of_spaceTest (s := s.setCtx s.port.running) hstack]
    exact State.settle_of_none hfault
  · obtain ⟨x, e, hx⟩ := State.advance_of_beginBatch_busy (s := s.setCtx s.port.running) hstack hprogress
    refine ⟨x, ?_, hx⟩
    rw [State.step_of_no_event hfault hsched hstack (by simp), e]
    exact State.settle_of_none hfault

end Sys2Proof.Machine

/-! ## A poll and what it hands on (R270, R283) -/

namespace Sys2Proof.Machine

namespace State

variable {s t : State} {a : Activation} {b : Byte} {d : Delivery} {q : Byte} {l : List Activation}

/-- With an empty schedule the running context's step, where it raises no fault, is the machine's (R13, R43). -/
theorem step_eq_next_of_advance (hfault : s.fault = none) (hsched : s.schedule = [])
    (hstack : (s.port.context s.port.running).stack = a :: l) (hframe : ∀ b, a ≠ .dispatch b)
    (hadvance : (s.setCtx s.port.running).advance = t) (ht : t.fault = none) : step s = .next t := by
  rw [step_of_no_event hfault hsched hstack hframe, hadvance]
  exact settle_of_none ht

/-- No other activation of either context is inside the transport: the one on top re-enters nothing (R285). -/
theorem not_reentered_of_alone (hstack : s.stack = a :: l) (hown : l.all (fun a => !a.inTransport) = true)
    (hother : (s.port.context s.ctx.other).stack.all (fun a => !a.inTransport) = true) : s.reentered = false := by
  rw [List.all_eq_not_any_not, Bool.not_eq_true'] at hown hother
  simp only [Bool.not_not] at hown hother
  rw [reentered, hstack, List.tail_cons, hown, hother, Bool.or_false]

/-! ### Which delivered frames go to `dispatch` -/

/-- An unreliable frame is the application's, under either relation. -/
theorem acceptDelivery_of_unreliable (hseq : d.seq = none) : s.acceptDelivery d = (s, true) := by
  simp only [acceptDelivery, hseq]

/-- `REL_ONCE` discards a sequenced frame. -/
theorem acceptDelivery_of_relOnce (hseq : d.seq = some q) (honce : s.params.reliability = .relOnce) :
    s.acceptDelivery d = (s, false) := by
  simp only [acceptDelivery, hseq, honce]

/-- The OPEN relation draws one free value; it discards a sequenced frame, or passes the next in sequence and expects the
one after it (log 19). -/
theorem acceptDelivery_of_openRel (hseq : d.seq = some q) (hopen : s.params.reliability = .openRel) :
    s.acceptDelivery d = (s.setFresh (s.fresh + 1), false) ∨
    q = s.port.transport.relRxSeq ∧
      s.acceptDelivery d = ((s.setTransport { s.port.transport with relRxSeq := q + 1 }).setFresh (s.fresh + 1), true) := by
  simp only [acceptDelivery, hseq, hopen]
  split
  · rename_i haccept
    obtain ⟨rfl, -⟩ := haccept
    exact .inr ⟨rfl, rfl⟩
  · exact .inl rfl

/-! ### The poll's step -/

/-- A poll whose byte completes no frame returns. -/
theorem stepPoll_of_no_delivery (halone : s.reentered = false) (hstack : s.stack = .poll b :: l)
    (hnone : (s.port.transport.receive s.params b).2 = none) :
    s.stepPoll b =
      (s.setTransport (s.port.transport.receive s.params b).1).setStack (l.dropWhile Activation.isAwaiting) := by
  unfold stepPoll
  rw [halone, if_neg Bool.false_ne_true]
  generalize s.port.transport.receive s.params b = out at hnone ⊢
  obtain ⟨x, o⟩ := out
  obtain rfl : o = none := hnone
  simp only [leave_eq, setTransport_stack, hstack, List.tail_cons]

/-- A poll whose byte completes a frame hands it on, and enters `dispatch` above it where the frame is accepted. -/
theorem stepPoll_of_delivery (halone : s.reentered = false) (hstack : s.stack = .poll b :: l)
    (hsome : (s.port.transport.receive s.params b).2 = some d) {accepted : Bool}
    (haccept : ((s.setTransport (s.port.transport.receive s.params b).1).setStack (.delivered :: l)).acceptDelivery d =
      (t, accepted)) :
    s.stepPoll b = if accepted then t.push (.dispatch (frameBytes d.id d.payload)) else t := by
  unfold stepPoll
  rw [halone, if_neg Bool.false_ne_true]
  generalize s.port.transport.receive s.params b = out at hsome haccept ⊢
  obtain ⟨x, o⟩ := out
  obtain rfl : o = some d := hsome
  simp only [replaceTop_eq, setTransport_stack, hstack, List.tail_cons, haccept]
  cases accepted <;> rfl

/-- Entering an operation over a stack just set, and after a free draw. -/
theorem push_setStack (x : Activation) : (s.setStack l).push x = s.setStack (x :: l) := by
  rw [push_eq, setStack_stack, setStack_setStack]

theorem push_setStack_setFresh (x : Activation) (n : Nat) :
    ((s.setStack l).setFresh n).push x = (s.setStack (x :: l)).setFresh n :=
  congrArg (·.setFresh n) (push_setStack x)

/-- The step of an activation that has handed its frame on: the parser goes on and the poll returns. -/
theorem advance_of_delivered (hstack : s.stack = .delivered :: l) :
    s.advance = (s.setTransport (s.port.transport.delivered s.params)).setStack (l.dropWhile Activation.isAwaiting) := by
  unfold advance
  rw [hstack]
  simp only [stepDelivered, leave_eq, setTransport_stack, hstack, List.tail_cons]

theorem advance_of_poll (hstack : s.stack = .poll b :: l) : s.advance = s.stepPoll b := by
  unfold advance
  rw [hstack]

end State

/-- Settles O31: the poll's step by what the parser makes of the byte, and by who takes the frame it completes. -/
theorem pollDeliversFrames : Obligations.PollDeliversFrames := by
  refine ⟨?_, fun s l hfault hsched hstack => ?_, fun p t b hcodec => ?_⟩
  · intro s b l hfault hsched hstack hown hother out t enter
    let u := s.setCtx s.port.running
    have htop : u.stack = .poll b :: l := hstack
    have halone : u.reentered = false := State.not_reentered_of_alone htop hown hother
    have hstep : ∀ {v : State}, u.stepPoll b = v → v.fault = none → step s = .next v := fun hv =>
      State.step_eq_next_of_advance hfault hsched hstack (by simp) ((State.advance_of_poll htop).trans hv)
    refine ⟨fun hnone => ?_, fun d hsome hseq => ?_, fun d q hsome hseq => ⟨fun honce => ?_, fun hopen => ?_⟩⟩
    · exact hstep (State.stepPoll_of_no_delivery halone htop hnone) hfault
    · exact hstep ((State.stepPoll_of_delivery halone htop hsome (State.acceptDelivery_of_unreliable hseq)).trans
        (State.push_setStack _)) hfault
    · exact hstep (State.stepPoll_of_delivery halone htop hsome (State.acceptDelivery_of_relOnce hseq honce)) hfault
    · rcases State.acceptDelivery_of_openRel (s := t.setStack (.delivered :: l)) hseq hopen with e | ⟨hq, e⟩
      · exact .inl (hstep (State.stepPoll_of_delivery halone htop hsome e) hfault)
      · obtain ⟨r, o, hreceive⟩ := receive_frame s.params s.port.transport b
        have hexpected : out.1.relRxSeq = s.port.transport.relRxSeq := by simp only [out, hreceive]
        refine .inr ⟨hq.trans hexpected, hstep ((State.stepPoll_of_delivery halone htop hsome e).trans ?_) hfault⟩
        rw [if_pos rfl, State.setStack_setTransport]
        exact State.push_setStack_setFresh ..
  · exact State.step_eq_next_of_advance hfault hsched hstack (by simp) (State.advance_of_delivered hstack) hfault
  · simp only [Transport.receive, Transport.delivered, hcodec]
    exact ⟨rfl, rfl⟩

end Sys2Proof.Machine

/-! ## GetConfig's chunks (R225), and little-endian operands (R106, R109) -/

namespace Sys2Proof.Machine

namespace State

variable {s : State} {l : List Activation}

/-! ### The chunks of a blob -/

/-- The first `n` chunks, in order, are the blob as far as they reach. -/
theorem flatMap_chunkPart (blob : List Byte) (n : Nat) :
    (List.range n).flatMap (chunkPart blob) = blob.take (251 * n) := by
  induction n with
  | zero => rfl
  | succ n ih =>
    rw [List.range_succ, List.flatMap_append, ih, List.flatMap_singleton, Nat.mul_succ, List.take_add]
    rfl

theorem length_chunkPart (blob : List Byte) (k : Nat) : (chunkPart blob k).length = min 251 (blob.length - 251 * k) := by
  rw [chunkPart, List.length_take, List.length_drop]

/-- A chunk's payload is its 4 header bytes and its part of the blob. -/
theorem length_chunkPayload (blob : List Byte) (k total : Nat) :
    (chunkPayload blob k total).length = 4 + (chunkPart blob k).length := by
  simp only [chunkPayload, u16le, List.length_append, List.length_cons, List.length_nil]

/-- A blob has more than one chunk exactly when it does not fit the first. -/
theorem one_lt_chunkTotal_iff (blob : List Byte) : 1 < chunkTotal blob ↔ 251 < blob.length := by
  simp only [chunkTotal, Config.chunkDataMax]
  omega

/-! ### Sending the chunks -/

/-- The loop's step: the reply of chunk `k` over what is left of the loop. -/
theorem sendChunks_eq (k total : Nat) :
    s.sendChunks k total =
      (if k + 1 < total then s.setStack (.getConfig (k + 1) total :: s.stack) else s).sendReply 0x11
        (chunkPayload s.blob k total) .unrel := rfl

/-- A reply raises no fault. -/
theorem sendReply_fault (id : FrameId) (p : List Byte) (mode : SendMode) : (s.sendReply id p mode).fault = s.fault := by
  obtain ⟨l, x, e, -⟩ := sendReply_frame (s := s) id p mode
  rw [e]
  rfl

/-- The step of GetConfig's loop once the reply of a chunk has returned (R225). -/
theorem advance_of_getConfig {k total : Nat} (hstack : s.stack = .getConfig k total :: l) :
    s.advance = (s.setStack (if k + 1 < total then .getConfig (k + 1) total :: l else l)).sendReply 0x11
      (chunkPayload s.blob k total) .unrel := by
  have hadvance : s.advance = s.popTop.sendChunks k total := by
    unfold advance
    rw [hstack]
  rw [hadvance, sendChunks_eq, popTop_eq, hstack, List.tail_cons, setStack_stack, setStack_setStack]
  split <;> rfl

end State

/-- Settles O43: the last chunk begins inside the blob, and the chunks reach its end. -/
theorem chunksRebuildTheBlob : Obligations.ChunksRebuildTheBlob := by
  intro b hpos hcap
  have htotal : State.chunkTotal b = (b.length + 250) / 251 := rfl
  refine ⟨by omega, by omega, fun k hk => ?_, ?_⟩
  · rw [State.length_chunkPayload, State.length_chunkPart]
    omega
  · rw [State.flatMap_chunkPart]
    exact List.take_of_length_le (by omega)

/-- Settles O42: the handler sends chunk 0, and each later step of the loop the next one. -/
theorem getConfigSendsChunks : Obligations.GetConfigSendsChunks := by
  refine ⟨fun s p => ⟨fun hempty => ?_, fun hblob => ?_⟩, fun s k total l hfault hsched hstack => ?_⟩
  · exact congrArg Host.Outcome.next (if_pos (List.length_eq_zero_iff.2 hempty))
  · refine congrArg Host.Outcome.next ((if_neg (mt List.length_eq_zero_iff.1 hblob)).trans ?_)
    rw [State.sendChunks_eq]
    simp only [Nat.zero_add, State.one_lt_chunkTotal_iff]
    rfl
  · exact State.step_eq_next_of_advance hfault hsched hstack (by simp)
      (State.advance_of_getConfig (s := s.setCtx s.port.running) hstack) ((State.sendReply_fault ..).trans hfault)

/-! ### Operands -/

/-- `rd16le` of the first two bytes: the second byte is the high one (R11). -/
theorem rd16le_cons (b0 b1 : Byte) (l : List Byte) : rd16le (b0 :: b1 :: l) 0 = b1 ++ b0 := by
  refine BitVec.eq_of_getLsbD_eq fun i hi => ?_
  have happend : (b1 ++ b0).getLsbD i = if i < 8 then b0.getLsbD i else b1.getLsbD (i - 8) := BitVec.getLsbD_append
  rw [happend, rd16le]
  interval_cases i <;> simp [byteAt]

theorem toNat_rd16le_cons (b0 b1 : Byte) (l : List Byte) :
    (rd16le (b0 :: b1 :: l) 0).toNat = b0.toNat + 256 * b1.toNat := by
  rw [rd16le_cons, BitVec.toNat_append, ← Nat.shiftLeft_add_eq_or_of_lt b0.isLt, Nat.shiftLeft_eq]
  omega

/-- LoadBinary's operands: two little-endian header fields, then the data (R106, R109). -/
theorem chunkOperand_cons (c0 c1 t0 t1 : Byte) (bytes : List Byte) :
    chunkOperand (c0 :: c1 :: t0 :: t1 :: bytes) = some ⟨c1 ++ c0, t1 ++ t0, bytes⟩ := by
  have hheader : 4 ≤ (c0 :: c1 :: t0 :: t1 :: bytes).length := by simp
  have htotal : rd16le (c0 :: c1 :: t0 :: t1 :: bytes) 2 = rd16le (t0 :: t1 :: bytes) 0 := rfl
  rw [chunkOperand, if_pos hheader, htotal, rd16le_cons, rd16le_cons]
  rfl

end Sys2Proof.Machine

/-! ## LoadBinary (R226, R340, R341) -/

namespace Sys2Proof.Machine

/-! ### Bytes written over a list -/

/-- Bytes written into a list from place `base` on are read back there, and every other place reads as before. -/
theorem getElem?_overwrite {α : Type} (l bytes : List α) {base : Nat} (hbase : base ≤ l.length) (j : Nat) :
    (l.take base ++ bytes ++ l.drop (base + bytes.length))[j]? =
      if base ≤ j ∧ j < base + bytes.length then bytes[j - base]? else l[j]? := by
  have hprefix : (l.take base).length = base := List.length_take_of_le hbase
  rw [List.append_assoc]
  by_cases hbelow : j < base
  · rw [List.getElem?_append_left (by omega), List.getElem?_take_of_lt hbelow, if_neg (by omega)]
  · rw [List.getElem?_append_right (by omega), hprefix]
    by_cases hinside : j < base + bytes.length
    · rw [List.getElem?_append_left (by omega), if_pos (by omega)]
    · rw [List.getElem?_append_right (by omega), List.getElem?_drop, if_neg (by omega)]
      congr 1
      omega

theorem length_overwrite {α : Type} (l bytes : List α) {base : Nat} (hbase : base ≤ l.length) :
    (l.take base ++ bytes ++ l.drop (base + bytes.length)).length = max l.length (base + bytes.length) := by
  simp only [List.length_append, List.length_take, List.length_drop]
  omega

/-! ### The default executor's chunk -/

/-- The blob a chunk extends: chunk 0 starts an empty one (R341). -/
def chunkStart (c : Chunk) (blob : List Byte) : List Byte := if c.chunkIdx = 0 then [] else blob

/-- Where a chunk's data stands, cut at the capacity (R341). -/
def chunkAddr (c : Chunk) : Nat := min (251 * c.chunkIdx.toNat) 2048

/-- The blob before the data is written is the one the chunk extends, and free bytes up to the chunk's place (log 15). -/
theorem chunkBase_eq (n : Nat) (c : Chunk) (blob : List Byte) :
    chunkBase n c blob = chunkStart c blob ++
      (List.range' (chunkStart c blob).length (chunkAddr c - (chunkStart c blob).length)).map (Config.gapByte n) := rfl

theorem length_chunkBase (n : Nat) (c : Chunk) (blob : List Byte) :
    (chunkBase n c blob).length = max (chunkStart c blob).length (chunkAddr c) := by
  rw [chunkBase_eq, List.length_append, List.length_map, List.length_range']
  omega

/-- LoadBinary's blob: the data, cut at the capacity, over that blob. -/
theorem loadChunk_eq (n : Nat) (c : Chunk) (blob : List Byte) :
    loadChunk n c blob = (chunkBase n c blob).take (chunkAddr c) ++ c.bytes.take (2048 - chunkAddr c) ++
      (chunkBase n c blob).drop (chunkAddr c + (c.bytes.take (2048 - chunkAddr c)).length) := rfl

/-- The blob's length is the maximum of R341. -/
theorem length_loadChunk (n : Nat) (c : Chunk) {blob : List Byte} (hcap : (chunkStart c blob).length ≤ 2048) :
    (loadChunk n c blob).length =
      max (chunkStart c blob).length (min (251 * c.chunkIdx.toNat + c.bytes.length) 2048) := by
  have hbase := length_chunkBase n c blob
  rw [loadChunk_eq, length_overwrite _ _ (by omega), hbase, List.length_take]
  simp only [chunkAddr]
  omega

/-- Within the capacity the data stands at the chunk's place. -/
theorem loadChunk_data (n : Nat) (c : Chunk) (blob : List Byte) {j : Nat} (hlow : 251 * c.chunkIdx.toNat ≤ j)
    (hhigh : j < 251 * c.chunkIdx.toNat + c.bytes.length) (hcap : j < 2048) :
    (loadChunk n c blob)[j]? = c.bytes[j - 251 * c.chunkIdx.toNat]? := by
  have haddr : chunkAddr c = 251 * c.chunkIdx.toNat := Nat.min_eq_left (by omega)
  have hbase := length_chunkBase n c blob
  rw [loadChunk_eq, getElem?_overwrite _ _ (by omega), List.length_take, if_pos (by omega), haddr,
    List.getElem?_take_of_lt (by omega)]

/-- Outside the data the blob reads as before. -/
theorem loadChunk_outside (n : Nat) (c : Chunk) (blob : List Byte) {j : Nat} (hj : j < (chunkStart c blob).length)
    (hcap : (chunkStart c blob).length ≤ 2048)
    (houtside : j < 251 * c.chunkIdx.toNat ∨ 251 * c.chunkIdx.toNat + c.bytes.length ≤ j) :
    (loadChunk n c blob)[j]? = (chunkStart c blob)[j]? := by
  have hbase := length_chunkBase n c blob
  have hnodata : ¬(chunkAddr c ≤ j ∧ j < chunkAddr c + min (2048 - chunkAddr c) c.bytes.length) := by
    simp only [chunkAddr]
    omega
  rw [loadChunk_eq, getElem?_overwrite _ _ (by omega), List.length_take, if_neg hnodata, chunkBase_eq,
    List.getElem?_append_left hj]

/-! ### The handler -/

/-- LoadBinary's handler with operands: the executor runs, and the reply carries its count (R226). -/
theorem State.hLoadBinary_of_operands {s : State} {p : List Byte} {c : Chunk} (hoperand : chunkOperand p = some c) :
    s.hLoadBinary p = (s.execLoad p c).1.sendReply 0x19 ([0x01, 0x00] ++ u16le (s.execLoad p c).2) .unrel := by
  simp only [hLoadBinary, hoperand]

/-- LoadBinary's handler without them refuses the payload (R401). -/
theorem State.hLoadBinary_of_short {s : State} {p : List Byte} (hshort : p.length < 4) :
    s.hLoadBinary p = s.sendReply 0x3F [0x18, 0x02] .rel := by
  simp only [hLoadBinary, chunkOperand, if_neg (Nat.not_le.2 hshort)]
  rfl

/-- Settles O44: the handler by the payload's length and the executor; the default executor's blob by its three parts. -/
theorem loadBinaryWritesChunk : Obligations.LoadBinaryWritesChunk := by
  refine ⟨fun s p hshort => congrArg Host.Outcome.next (State.hLoadBinary_of_short hshort), ?_, ?_⟩
  · intro s p k hlong hexec
    refine ⟨loadOther k p s.execState, (Config.execOther k p s.execState).2, State.length_loadOther k p s.execState, ?_⟩
    refine congrArg Host.Outcome.next ((State.hLoadBinary_of_operands (if_pos hlong)).trans ?_)
    simp only [State.execLoad, hexec]
  · intro s c0 c1 t0 t1 bytes hexec hcap ci tc old base
    let c : Chunk := ⟨ci, tc, bytes⟩
    have hstart : (chunkStart c s.blob).length ≤ 2048 := by
      unfold chunkStart
      split
      · exact Nat.zero_le _
      · exact hcap
    obtain ⟨n, hload, hn⟩ := State.loadDefault_frame (s := s) c
    refine ⟨loadChunk s.fresh c s.blob, n, hn, ?_, length_loadChunk s.fresh c hstart,
      fun j hlow hhigh hj => loadChunk_data s.fresh c s.blob hlow hhigh hj,
      fun j hj houtside => loadChunk_outside s.fresh c s.blob hj hstart houtside⟩
    refine congrArg Host.Outcome.next ((State.hLoadBinary_of_operands (chunkOperand_cons c0 c1 t0 t1 bytes)).trans ?_)
    rw [← hload]
    simp only [State.execLoad, hexec]
    rfl

end Sys2Proof.Machine

/-! ## Ping, the stream, the output driver, capabilities, unrecognized ids (R223, R230 to R234) -/

namespace Sys2Proof.Machine

namespace State

/-! ### The stream's rate and period -/

/-- The rate operand's value: its two bytes little-endian, 0 where they are absent (R106, R230). -/
theorem toNat_rateOperand (p : List Byte) :
    ((rateOperand p).getD 0).toNat =
      if 2 ≤ p.length then (p.getD 0 0).toNat + 256 * (p.getD 1 0).toNat else 0 := by
  match p with
  | [] => rfl
  | [_] => rfl
  | b0 :: b1 :: l =>
    have hpresent : 2 ≤ (b0 :: b1 :: l).length := by simp
    rw [rateOperand, if_pos hpresent, if_pos hpresent]
    exact toNat_rd16le_cons b0 b1 l

/-- The rate StartStream uses: the default for 0, at most the maximum (R230). -/
theorem toNat_rateUsed (r : Option U16) :
    (rateUsed r).toNat = if (r.getD 0).toNat = 0 then 10 else min (r.getD 0).toNat 100 := by
  unfold rateUsed
  generalize r.getD 0 = v
  by_cases hzero : v = 0
  · subst hzero
    decide
  · have hpos : v.toNat ≠ 0 := fun h => hzero (BitVec.eq_of_toNat_eq h)
    have hmax : Config.rateMax < v ↔ 100 < v.toNat := BitVec.lt_def
    simp only [if_neg hzero, if_neg hpos, hmax]
    split
    · show 100 = min v.toNat 100
      omega
    · omega

/-- The period is `1000 div` the rate (R230). -/
theorem toNat_periodOf (r : U16) : (periodOf r).toNat = 1000 / r.toNat := by
  have hwide : (r.zeroExtend 32).toNat = r.toNat := BitVec.toNat_setWidth_of_le (by decide)
  rw [periodOf, BitVec.toNat_udiv, hwide]
  rfl

/-! ### The output driver -/

/-- A request leaves the raw state of every channel but the one it names (R339). -/
theorem setOutput_state_of_ne {s : State} {ch st : Byte} {k : Fin Config.nOut} (hk : k.val ≠ ch.toNat) :
    (s.setOutput ch st).driver.state[k] = s.driver.state[k] := by
  simp only [setOutput, setFresh_driver, setDriver_driver, Fin.getElem_fin, Vector.getElem_ofFn, if_neg hk]

theorem outputOperand_of_short {p : List Byte} (hshort : p.length < 2) : outputOperand p = none := by
  match p, hshort with
  | [], _ => rfl
  | [_], _ => rfl

end State

/-- Settles O46: the period of the rate that the payload gives, which is a legal one. -/
theorem startStreamSetsPeriod : Obligations.StartStreamSetsPeriod := by
  intro s p raw rate
  let period := State.periodOf (State.rateUsed (rateOperand p))
  have hperiod : period.toNat = 1000 / rate := by
    rw [State.toNat_periodOf, State.toNat_rateUsed, State.toNat_rateOperand]
  obtain ⟨hlow, hhigh⟩ := State.periodOf_ok (State.rateUsed_range (rateOperand p))
  exact ⟨{ s.port.stream with periodMs := period, active := true, lastEmitTick := s.clock }, hperiod, rfl, rfl, rfl,
    hlow, hhigh, rfl⟩

/-- Settles O48: the payload's length decides; a request reaches the one channel it names. -/
theorem setOutputRequestsChannel : Obligations.SetOutputRequestsChannel := by
  refine fun s p => ⟨fun hshort => congrArg Host.Outcome.next ?_, ?_⟩
  · rw [State.hSetOutput, State.outputOperand_of_short hshort]
    rfl
  · rintro ch st more rfl
    exact ⟨(s.setOutput ch st).driver, rfl, fun k => State.setOutput_state_of_ne, rfl⟩

/-- Settles O39: the two handlers are their replies. -/
theorem pingAndCapabilitiesReply : Obligations.PingAndCapabilitiesReply := fun _ _ => ⟨rfl, rfl⟩

/-- Settles O47: the handler is one update of the stream register and its reply. -/
theorem stopStreamClearsActive : Obligations.StopStreamClearsActive := fun _ _ => rfl

/-- Settles O49: each of these instructions is the unrecognized path of its id. -/
theorem unrecognizedIdsAreNacked : Obligations.UnrecognizedIdsAreNacked := fun _ _ _ =>
  ⟨rfl, rfl, rfl, rfl, rfl, rfl, rfl, rfl, rfl, rfl, rfl, rfl, rfl⟩

end Sys2Proof.Machine

/-! ## The system reset, and the Reset handler (R224, R440 to R443) -/

namespace Sys2Proof.Machine

namespace State

variable {s : State}

/-- Boot's blob is the flash record's, or empty (R334, R443). -/
theorem systemReset_blob : (systemReset s).blob = s.storedBlob.getD [] := by
  rw [systemReset_eq]
  rfl

/-- What the environment keeps through a reset, the model's own choice (log 10), and the clock. -/
theorem systemReset_kept :
    (systemReset s).clock = s.clock ∧ (systemReset s).driver = s.driver ∧ (systemReset s).channels = s.channels ∧
    (systemReset s).execStore = s.execStore ∧ (systemReset s).adc = s.adc ∧ (systemReset s).din = s.din := by
  rw [systemReset_eq]
  exact ⟨rfl, rfl, rfl, rfl, rfl, rfl⟩

/-- A reset leaves both contexts idle, and the record of the bytes sent. -/
theorem systemReset_contexts :
    (systemReset s).port.ctxM = Context.reset ∧ (systemReset s).port.ctxI = Context.reset ∧
    (systemReset s).port.uart.sent = s.port.uart.sent := by
  rw [systemReset_port]
  exact ⟨rfl, rfl, rfl⟩

/-- The step of the Reset handler once its reply has returned (R224). -/
theorem advance_of_sysReset {l : List Activation} (hstack : s.stack = .sysReset :: l) : s.advance = systemReset s := by
  unfold advance
  rw [hstack]

end State

/-- The ring at reset has its capacity's slots (R35). -/
theorem length_ringReset (p : Config.Params) (n k : Nat) : (Ring.reset p n k).buf.length = p.rxCap := by
  rw [Ring.reset, List.length_map, List.length_range]

/-- Settles O41: the port's reset values, boot's blob, and what the reset does not touch. -/
theorem systemResetValues : Obligations.SystemResetValues := by
  intro s t
  have hport : t.port = Port.reset s.params (s.fresh + 1) 0 s.port.uart.sent := State.systemReset_port
  obtain ⟨hclock, hdriver, hchannels, hstore, hadc, hdin⟩ := State.systemReset_kept (s := s)
  rw [hport]
  exact ⟨rfl, rfl, rfl, rfl, rfl, rfl, fun c => by cases c <;> rfl, rfl, rfl, length_ringReset .., rfl, rfl, rfl, rfl, rfl,
    State.systemReset_blob, State.systemReset_fault, State.systemReset_flash, hclock, rfl, hdriver, hchannels, hstore,
    hadc, hdin, State.systemReset_params⟩

/-- Settles O40: the handler's reply stands over the reset, which is the next step once the reply has returned. -/
theorem resetAcksThenResets : Obligations.ResetAcksThenResets := fun s _ =>
  ⟨rfl, fun l hfault hsched hstack =>
    State.step_eq_next_of_advance hfault hsched hstack (by simp)
      (State.advance_of_sysReset (s := s.setCtx s.port.running) hstack) (State.systemReset_fault.trans hfault)⟩

end Sys2Proof.Machine

/-! ## The store's failures and its clearing (R332, R333, R335, R338) -/

namespace Sys2Proof.Machine

namespace State

variable {s : State}

/-! ### The guarded erase -/

/-- An erase that fails is answered, with nothing but the cells, the script, the free draws and the watchdog moved. -/
theorem guardedErase_of_failed (hnext : s.nextErase = .failed) :
    ∃ cells, s.guardedErase =
      (((s.setFlash { s.flash with cells := cells, eraseScript := s.flash.eraseScript.tail }).setFresh
        (s.fresh + 1)).setWdt 0, some false) := by
  rcases guardedErase_cases (s := s) with ⟨ok, e, hok⟩ | ⟨hexpired, -⟩
  · cases ok
    · exact ⟨_, e⟩
    · cases hnext.symm.trans hok
  · cases hnext.symm.trans hexpired

/-- A watchdog that expires inside the erase resets the system (R338). -/
theorem guardedErase_of_expired (hnext : s.nextErase = .expired) :
    ∃ cells, s.guardedErase =
      (systemReset (((s.setWdt 0).setFlash
        { s.flash with cells := cells, eraseScript := s.flash.eraseScript.tail }).setFresh (s.fresh + 1)), none) := by
  rcases guardedErase_cases (s := s) with ⟨ok, -, hok⟩ | ⟨-, e⟩
  · cases ok <;> cases hnext.symm.trans hok
  · exact ⟨_, e⟩

/-- The outcome the script gives the next erase (log 12). -/
theorem nextErase_of_script {o : Config.EraseOutcome} {es : List Config.EraseOutcome}
    (hscript : s.flash.eraseScript = o :: es) : s.nextErase = o := by
  simp only [nextErase, hscript]

/-! ### An erased sector -/

/-- After an erase that succeeds every byte of the sector reads as erased (R330). -/
theorem flashRead_of_erased (hnext : s.nextErase = .done) {a : Nat} (hlow : s.params.sectorBase ≤ a)
    (hhigh : a < s.params.sectorBase + s.params.sectorSize) : s.eraseSector.1.flashRead a = s.params.flashErased := by
  simp only [eraseSector, hnext]
  exact (Memory.read_erase _ _ _).trans (if_pos ⟨hlow, hhigh⟩)

/-- A sector that reads as erased holds no record, whatever `FLASH_ERASED` is (R334, R335). -/
theorem storedBlob_of_erased
    (herased : ∀ a, s.params.sectorBase ≤ a → a < s.params.sectorBase + s.params.sectorSize →
      s.flashRead a = s.params.flashErased) : s.storedBlob = none := by
  have hmagic : ∀ b : Byte, rd32le (List.replicate 8 b) 0 ≠ recordMagic := by decide
  have hlow := s.params.record_low
  have hhigh := s.params.record_high
  simp only [Config.recordMax] at hhigh
  have hheader : s.flashBytes s.params.recordAddr 8 = List.replicate 8 s.params.flashErased := by
    refine List.eq_replicate_iff.2 ⟨Memory.length_readBytes .., fun b hb => ?_⟩
    obtain ⟨k, hk, rfl⟩ := List.mem_map.1 hb
    rw [List.mem_range] at hk
    exact herased _ (by omega) (by omega)
  unfold storedBlob
  simp only [hheader]
  exact if_pos (.inl (hmagic _))

/-! ### A program call that fails -/

/-- A program call that fails leaves free bytes in its word (R330, U6). -/
theorem programWord_of_failed {a : Nat} {w : List Byte} {ps : List Bool}
    (hscript : s.flash.programScript = false :: ps) :
    s.programWord a w =
      ((s.setFlash { s.flash with
          cells := Memory.scramble s.params.flashErased (Config.flashByte s.fresh) s.flash.cells a w.length,
          programScript := ps }).setFresh (s.fresh + 1), false) := by
  simp only [programWord, nextProgram, hscript, List.tail_cons, Bool.false_eq_true, if_false]

/-- The loop stops at the first program call that fails; what lies behind that word reads as before (R333, D51). -/
theorem programWords_of_failed {k a : Nat} {l : List Byte} {ps : List Bool} (hlength : 4 * (k + 1) ≤ l.length)
    (hwf : Memory.wf s.params.flashErased s.flash.cells = true)
    (hscript : s.flash.programScript = List.replicate k true ++ false :: ps) :
    ∃ cells n, State.programWords a l s =
        ((s.setFlash { s.flash with cells := cells, programScript := ps }).setFresh n, false) ∧
      ∀ x, a + 4 * (k + 1) ≤ x →
        Memory.read s.params.flashErased cells x = Memory.read s.params.flashErased s.flash.cells x := by
  induction k generalizing a l s with
  | zero =>
    match l, hlength with
    | b0 :: b1 :: b2 :: b3 :: rest, _ =>
      rw [State.programWords, programWord_of_failed (ps := ps) hscript]
      exact ⟨_, _, rfl, fun x hx => Memory.read_scramble_outside _ _ _ _ hwf
        (by simp only [List.length_cons, List.length_nil]; omega)⟩
  | succ k ih =>
    match l, hlength with
    | b0 :: b1 :: b2 :: b3 :: rest, hlength =>
      rw [State.programWords, programWord_of_ok (ps := List.replicate k true ++ false :: ps) hscript]
      simp only
      obtain ⟨cells, n, e, hread⟩ := ih
        (s := (s.setFlash { s.flash with
          cells := Memory.writeBytes s.params.flashErased s.flash.cells a [b0, b1, b2, b3],
          programScript := List.replicate k true ++ false :: ps }).setFresh (s.fresh + 1))
        (a := a + 4) (l := rest) (by simp only [List.length_cons] at hlength; omega)
        (Memory.wf_writeBytes _ _ hwf) rfl
      refine ⟨cells, n, e, fun x hx => (hread x (by omega)).trans ?_⟩
      refine (Memory.read_writeBytes _ _ _ hwf).trans (if_neg ?_)
      simp only [List.length_cons, List.length_nil]
      omega

/-! ### The store -/

/-- `Store.save` refuses an empty or oversize blob before it calls anything (R332). -/
theorem storeSave_of_refused (hblob : s.blob = [] ∨ 2048 < s.blob.length) : s.storeSave = (s, some false) :=
  if_pos (hblob.imp_left List.length_eq_zero_iff.2)

/-- `Store.save` ends with an erase that does not succeed (R333). -/
theorem storeSave_of_not_erased {t : State} {r : Option Bool} (hpos : 0 < s.blob.length) (hcap : s.blob.length ≤ 2048)
    (herase : s.guardedErase = (t, r)) (hr : r ≠ some true) : s.storeSave = (t, r) := by
  unfold storeSave
  rw [if_neg (by simp only [Config.blobCap]; omega), herase]
  match r, hr with
  | none, _ => rfl
  | some false, _ => rfl

/-- Past an erase that succeeds, `Store.save` answers what its program loop does (R333). -/
theorem storeSave_of_erased {t u : State} {ok : Bool} (hpos : 0 < s.blob.length) (hcap : s.blob.length ≤ 2048)
    (herase : s.guardedErase = (t, some true))
    (hloop : State.programWords t.params.recordAddr (recordBytes t.params.flashPad t.blob) t = (u, ok)) :
    s.storeSave = (u, some ok) := by
  unfold storeSave
  rw [if_neg (by simp only [Config.blobCap]; omega), herase]
  simp only [hloop]

/-- SaveConfig replies what the save answers (R228). -/
theorem hSaveConfig_of_answer {t : State} {ok : Bool} (hsave : s.storeSave = (t, some ok)) :
    s.hSaveConfig = t.sendReply 0x15 [if ok then 0x01 else 0x00] .rel := by
  simp only [hSaveConfig, hsave]

/-- SaveConfig does not reply where the system has reset inside the save (R338). -/
theorem hSaveConfig_of_reset {t : State} (hsave : s.storeSave = (t, none)) : s.hSaveConfig = t := by
  simp only [hSaveConfig, hsave]

/-- ClearConfig replies `[01]` to whatever the erase answers (R229, D37). -/
theorem hClearConfig_of_answer {t : State} {ok : Bool} (hclear : s.storeClear = (t, some ok)) :
    s.hClearConfig = t.sendReply 0x17 [0x01] .rel := by
  simp only [hClearConfig, hclear]

/-- ClearConfig does not reply where the system has reset inside the erase (R338). -/
theorem hClearConfig_of_reset {t : State} (hclear : s.storeClear = (t, none)) : s.hClearConfig = t := by
  simp only [hClearConfig, hclear]

end State

/-- Settles O51: each failure by where the save stops. -/
theorem saveConfigFailures : Obligations.SaveConfigFailures := by
  intro s p
  refine ⟨fun hblob => ?_, fun es hpos hcap hscript => ?_, fun es ps k hpos hcap hflash hscript hk hprogram => ?_,
    fun es hpos hcap hscript => ?_⟩
  · exact congrArg Host.Outcome.next (State.hSaveConfig_of_answer (State.storeSave_of_refused hblob))
  · obtain ⟨cells, herase⟩ := State.guardedErase_of_failed (State.nextErase_of_script hscript)
    have hsave := State.storeSave_of_not_erased hpos hcap herase (by simp)
    exact ⟨_, congrArg Host.Outcome.next (State.hSaveConfig_of_answer hsave), rfl, rfl, rfl,
      congrArg List.tail hscript⟩
  · let t := ((s.setFlash { s.flash with
        cells := Memory.erase s.flash.cells s.params.sectorBase s.params.sectorSize, eraseScript := es }).setFresh
      (s.fresh + 1)).setWdt 0
    have hlength := length_recordBytes s.params.flashPad s.blob
    obtain ⟨cells, n, hloop, hread⟩ := State.programWords_of_failed (s := t) (a := s.params.recordAddr)
      (l := recordBytes s.params.flashPad s.blob) (by omega) (Memory.wf_erase _ _ hflash.1) hprogram
    have hsave := State.storeSave_of_erased hpos hcap (State.guardedErase_of_done hscript) hloop
    refine ⟨_, congrArg Host.Outcome.next (State.hSaveConfig_of_answer hsave), rfl, rfl, rfl, fun a hlow hhigh => ?_⟩
    have hbase := s.params.record_low
    exact (hread a hlow).trans ((Memory.read_erase _ _ _).trans (if_pos (by omega)))
  · obtain ⟨cells, herase⟩ := State.guardedErase_of_expired (State.nextErase_of_script hscript)
    have hsave := State.storeSave_of_not_erased hpos hcap herase (by simp)
    exact ⟨_, _, congrArg Host.Outcome.next (State.hSaveConfig_of_reset hsave), rfl, rfl, congrArg List.tail hscript, rfl,
      State.systemReset_contexts⟩

/-- Settles O53: the guarded erase answers, or the system has reset inside it; a sector erased holds no record. -/
theorem clearConfigErases : Obligations.ClearConfigErases := by
  refine ⟨fun s p hexpired => ?_, fun s p hanswers => ?_⟩
  · obtain ⟨cells, herase⟩ := State.guardedErase_of_expired (s := s.setBlob []) hexpired
    exact ⟨_, _, congrArg Host.Outcome.next (State.hClearConfig_of_reset herase), rfl, rfl, State.systemReset_contexts⟩
  · rcases State.guardedErase_cases (s := s.setBlob []) with ⟨ok, herase, -⟩ | ⟨hexpired, -⟩
    · refine ⟨_, congrArg Host.Outcome.next (State.hClearConfig_of_answer herase), rfl, rfl, rfl, fun hdone => ?_⟩
      have herased : ∀ a, s.params.sectorBase ≤ a → a < s.params.sectorBase + s.params.sectorSize →
          ((s.setBlob []).wdtRefresh.eraseSector).1.wdtRefresh.flashRead a = s.params.flashErased :=
        fun a hlow hhigh => State.flashRead_of_erased (s := (s.setBlob []).wdtRefresh) hdone hlow hhigh
      have hnone := State.storedBlob_of_erased (s := ((s.setBlob []).wdtRefresh.eraseSector).1.wdtRefresh) herased
      refine ⟨herased, hnone, ?_⟩
      rw [State.systemReset_blob, hnone]
      rfl
    · exact absurd hexpired hanswers

end Sys2Proof.Machine

/-! ## The default codec: what it puts on the wire and how the receiver reads it (R273 to R275, R280 to R285) -/

namespace Sys2Proof.Machine

/-! ### Byte stuffing -/

/-- One byte under the stuffing, by the marks that may still go out in a row: a byte other than 0xAA, an 0xAA that may be
followed by another, and an 0xAA that a stuff byte follows (R274). -/
theorem stuff_cons_cases {cd : Nat} (hpos : 0 < cd) (htwo : cd ≤ 2) (b : Byte) (u : List Byte) :
    (b ≠ 0xAA ∧ stuff cd (b :: u) = b :: stuff 2 u) ∨
    (b = 0xAA ∧ cd = 2 ∧ stuff cd (b :: u) = 0xAA :: stuff 1 u) ∨
    (b = 0xAA ∧ cd = 1 ∧ stuff cd (b :: u) = 0xAA :: 0x55 :: stuff 2 u) := by
  by_cases hb : b = 0xAA
  · subst hb
    obtain rfl | rfl : cd = 1 ∨ cd = 2 := by omega
    · exact .inr (.inr ⟨rfl, rfl, rfl⟩)
    · exact .inr (.inl ⟨rfl, rfl, rfl⟩)
  · exact .inl ⟨hb, if_neg hb⟩

/-- A stuff byte goes out for every two 0xAA bytes at most. -/
theorem length_stuff_le {cd : Nat} (hpos : 0 < cd) (htwo : cd ≤ 2) (u : List Byte) :
    2 * (stuff cd u).length + cd ≤ 3 * u.length + 2 := by
  induction u generalizing cd with
  | nil => simpa [stuff] using htwo
  | cons b u ih =>
    have hone := ih (cd := 1) (by omega) (by omega)
    have hfresh := ih (cd := 2) (by omega) (by omega)
    rcases stuff_cons_cases hpos htwo b u with ⟨-, e⟩ | ⟨-, rfl, e⟩ | ⟨-, rfl, e⟩ <;>
      simp only [e, List.length_cons] <;> omega

/-- With `cd` marks still allowed, no more than `cd` of them begin the stuffed bytes and the EOF. -/
theorem not_marks_prefix_stuff {cd : Nat} (hpos : 0 < cd) (htwo : cd ≤ 2) (u : List Byte) :
    ¬ List.replicate (cd + 1) 0xAA <+: stuff cd u ++ [0x55] := by
  induction u generalizing cd with
  | nil => simp [stuff, List.replicate_succ, List.cons_prefix_cons]
  | cons b u ih =>
    rcases stuff_cons_cases hpos htwo b u with ⟨hb, e⟩ | ⟨-, rfl, e⟩ | ⟨-, rfl, e⟩
    · rw [e, List.replicate_succ, List.cons_append, List.cons_prefix_cons]
      exact fun h => hb h.1.symm
    · rw [e, List.replicate_succ, List.cons_append, List.cons_prefix_cons]
      exact fun h => ih (cd := 1) (by omega) (by omega) h.2
    · simp [e, List.replicate_succ, List.cons_prefix_cons]

/-- No three marks in a row occur in the stuffed bytes and the EOF. -/
theorem not_three_marks_infix_stuff {cd : Nat} (hpos : 0 < cd) (htwo : cd ≤ 2) (u : List Byte) :
    ¬ List.replicate 3 0xAA <:+: stuff cd u ++ [0x55] := by
  induction u generalizing cd with
  | nil => exact fun h => absurd h.length_le (by simp [stuff])
  | cons b u ih =>
    have hhead : ¬ List.replicate 3 0xAA <+: stuff cd (b :: u) ++ [0x55] := fun h =>
      not_marks_prefix_stuff hpos htwo (b :: u)
        (List.IsPrefix.trans ⟨List.replicate (2 - cd) 0xAA, by rw [List.replicate_append_replicate]; congr 1; omega⟩ h)
    have hfresh := ih (cd := 2) (by omega) (by omega)
    rcases stuff_cons_cases hpos htwo b u with ⟨-, e⟩ | ⟨-, rfl, e⟩ | ⟨-, rfl, e⟩ <;>
      rw [e] at hhead ⊢
    · exact fun h => (List.infix_cons_iff.1 h).elim hhead hfresh
    · exact fun h => (List.infix_cons_iff.1 h).elim hhead (ih (by omega) (by omega))
    · refine fun h => (List.infix_cons_iff.1 h).elim hhead fun h => (List.infix_cons_iff.1 h).elim ?_ hfresh
      simp [List.replicate_succ, List.cons_prefix_cons]

/-! ### The wire form -/

/-- The stuffed bytes are the id/control byte, the sequence byte, the length, the payload and the CRC (R273). -/
theorem length_covered (q : Config.Crc32Params) (f : TxFrame) :
    (f.covered q).length = f.seq.toList.length + f.payload.length + 6 := by
  simp only [TxFrame.covered, TxFrame.body, u32be, List.length_append, List.length_cons, List.length_nil]
  omega

/-- SOF and EOF take four bytes, the stuffing one for every two it covers at most. -/
theorem length_minWire_le (q : Config.Crc32Params) (f : TxFrame) :
    2 * (minWire q f).length ≤ 3 * (f.seq.toList.length + f.payload.length) + 26 := by
  have hstuff := length_stuff_le Nat.two_pos le_rfl (f.covered q)
  rw [length_covered] at hstuff
  simp only [minWire, List.length_append, List.length_cons, List.length_nil]
  omega

/-- Settles O35: the bound of the wire form, without and with a sequence byte. -/
theorem wireLengthBound : Obligations.WireLengthBound := by
  intro q id seq p hp
  have hunreliable := length_minWire_le q ⟨id, none, p⟩
  have hreliable := length_minWire_le q ⟨id, some seq, p⟩
  simp only [Option.toList_none, Option.toList_some, List.length_nil, List.length_singleton] at hunreliable hreliable
  omega

/-- Settles O34: what follows the SOF is the stuffed bytes and the EOF. -/
theorem noThreeMarksAfterSof : Obligations.NoThreeMarksAfterSof := fun q f =>
  not_three_marks_infix_stuff Nat.two_pos le_rfl (f.covered q)

/-! ### Reading the unstuffed bytes -/

theorem crc32Update_append (q : Config.Crc32Params) (c : U32) (u v : List Byte) :
    crc32Update q c (u ++ v) = crc32Update q (crc32Update q c u) v := List.foldl_append

namespace Receiver

/-- The receiver goes from `r` to `r'` on bytes that passed the filter, and delivers nothing on the way (R282). -/
inductive Reads (q : Config.Crc32Params) : Receiver → List Byte → Receiver → Prop
  | nil (r : Receiver) : Reads q r [] r
  | cons {r m r' : Receiver} {b : Byte} {u : List Byte} (hstep : r.stepByte q b = (m, none)) (hrest : Reads q m u r') :
      Reads q r (b :: u) r'

variable {q : Config.Crc32Params} {r m r' : Receiver} {b : Byte} {u v p : List Byte}

theorem Reads.append (hfirst : Reads q r u m) (hsecond : Reads q m v r') : Reads q r (u ++ v) r' := by
  induction hfirst with
  | nil => exact hsecond
  | cons hstep _ ih => exact .cons hstep (ih hsecond)

/-- The state step neither reads nor writes `seen`. -/
theorem stepByte_setSeen (q : Config.Crc32Params) (b : Byte) (r : Receiver) (k : Fin 3) :
    stepByte q b { r with seen := k } = ({ (stepByte q b r).1 with seen := k }, (stepByte q b r).2) := by
  obtain ⟨st, _⟩ := r
  cases st
  case idc | eof => simp only [stepByte]; split <;> rfl
  all_goals rfl

/-! ### The filter takes the stuff bytes out (R281) -/

theorem receiveAll_of_no_delivery (hreceive : r.receive q b = (m, none)) (l : List Byte) :
    receiveAll q r (b :: l) = receiveAll q m l := by
  simp only [receiveAll, hreceive]

theorem receiveAll_of_delivery {d : Delivery} (hreceive : r.receive q b = (m, some d)) (l : List Byte) :
    receiveAll q r (b :: l) = ((receiveAll q m.delivered l).1, d :: (receiveAll q m.delivered l).2) := by
  simp only [receiveAll, hreceive]

/-- An 0xAA that is not the third in a row goes to the state step. -/
theorem receive_mark {k : Fin 3} (hk : k ≠ 2) (hstep : r.stepByte q 0xAA = (m, none)) :
    receive q { r with seen := k } 0xAA = ({ m with seen := k + 1 }, none) := by
  simp only [receive, if_neg hk, if_true, stepByte_setSeen, hstep]

/-- Another byte goes there too, where no stuff byte is due. -/
theorem receive_other {k : Fin 3} (hk : k ≠ 2) (hb : b ≠ 0xAA) :
    receive q { r with seen := k } b = ({ (r.stepByte q b).1 with seen := 0 }, (r.stepByte q b).2) := by
  simp only [receive, if_neg hk, if_neg hb, stepByte_setSeen]

/-- The stuff byte after two 0xAA is taken out. -/
theorem receive_stuff : receive q { r with seen := 2 } 0x55 = ({ r with seen := 0 }, none) := rfl

/-- The receiver reads stuffed bytes as the bytes they stand for, whatever follows. -/
theorem Reads.receiveAll_stuff (h : Reads q r u r') {k : Fin 3} (hk : k ≠ 2) :
    ∃ k' : Fin 3, k' ≠ 2 ∧ ∀ v, receiveAll q { r with seen := k } (stuff (2 - k.val) u ++ v) =
      receiveAll q { r' with seen := k' } v := by
  induction h generalizing k with
  | nil => exact ⟨k, hk, fun _ => rfl⟩
  | @cons r m r' b u hstep _ ih =>
    rcases stuff_cons_cases (cd := 2 - k.val) (by omega) (by omega) b u with
      ⟨hb, e⟩ | ⟨rfl, hzero, e⟩ | ⟨rfl, hone, e⟩
    · obtain ⟨k', hk', hrest⟩ := ih (k := 0) (by decide)
      have hbyte : receive q { r with seen := k } b = ({ m with seen := 0 }, none) := by
        rw [receive_other hk hb, hstep]
      exact ⟨k', hk', fun v => by rw [e]; exact (receiveAll_of_no_delivery hbyte _).trans (hrest v)⟩
    · obtain rfl : k = 0 := by omega
      obtain ⟨k', hk', hrest⟩ := ih (k := 1) (by decide)
      exact ⟨k', hk', fun v => by
        rw [e]; exact (receiveAll_of_no_delivery (receive_mark hk hstep) _).trans (hrest v)⟩
    · obtain rfl : k = 1 := by omega
      obtain ⟨k', hk', hrest⟩ := ih (k := 0) (by decide)
      exact ⟨k', hk', fun v => by
        rw [e]
        exact (receiveAll_of_no_delivery (receive_mark hk hstep) _).trans
          ((receiveAll_of_no_delivery receive_stuff _).trans (hrest v))⟩

/-- With no 0xAA pending, SOF brings the receiver to the id/control byte wherever it stands: 0xAA is no EOF, so nothing is
delivered (R281). -/
theorem receiveAll_sof (q : Config.Crc32Params) (hseen : r.seen = 0) :
    ∃ m : Receiver, m.st = .idc ∧ m.seen = 0 ∧
      ∀ l, receiveAll q r ([0xAA, 0xAA, 0xAA] ++ l) = receiveAll q m l := by
  have hquiet : ∀ x : Receiver, x.stepByte q 0xAA = ((x.stepByte q 0xAA).1, none) := fun x => by
    rcases hsome : (x.stepByte q 0xAA).2 with - | d
    · rw [← hsome]
    · obtain ⟨-, heof, -⟩ := stepByte_delivery q 0xAA x d hsome
      exact absurd heof (by decide)
  let x := (r.stepByte q 0xAA).1
  let y := (x.stepByte q 0xAA).1
  have hfirst : receive q r 0xAA = ({ x with seen := 1 }, none) := by
    have hr : r = { r with seen := 0 } := by rw [← hseen]
    rw [hr]
    exact receive_mark (by decide) (hquiet r)
  have hsecond : receive q { x with seen := 1 } 0xAA = ({ y with seen := 2 }, none) :=
    receive_mark (by decide) (hquiet x)
  have hthird : receive q { y with seen := 2 } 0xAA = ({ y with seen := 0, st := .idc }, none) := rfl
  exact ⟨{ y with seen := 0, st := .idc }, rfl, rfl, fun l =>
    (receiveAll_of_no_delivery hfirst _).trans
      ((receiveAll_of_no_delivery hsecond _).trans (receiveAll_of_no_delivery hthird _))⟩

/-! ### A frame's bytes, field by field (R282) -/

/-- The id/control byte, and the sequence byte where bit 7 marks it. -/
theorem reads_head (q : Config.Crc32Params) (hst : r.st = .idc) {idc : Byte} {sq : Option Byte}
    (hbit : idc.getLsbD 7 = sq.isSome) :
    Reads q r (idc :: sq.toList)
      { r with idc := idc, seq := sq.getD 0, pay := [], crc := crc32Update q (crc32Init q) (idc :: sq.toList),
               st := .len } := by
  cases sq with
  | none =>
    refine .cons ?_ (.nil _)
    simp only [stepByte, hst, hbit, Option.isSome_none, Bool.false_eq_true, if_false]
    rfl
  | some x =>
    refine .cons (m := { r with idc := idc, pay := [], crc := crc32Step q (crc32Init q) idc, st := .seq }) ?_
      (.cons rfl (.nil _))
    simp only [stepByte, hst, hbit, Option.isSome_some, if_true]

/-- As many payload bytes as `rem` counts. -/
theorem reads_payload (q : Config.Crc32Params) (hst : r.st = .pay) (hne : p ≠ []) (hrem : r.rem.toNat = p.length) :
    Reads q r p { r with pay := r.pay ++ p, crc := crc32Update q r.crc p, rem := 0, st := .ck3 } := by
  induction p generalizing r with
  | nil => exact absurd rfl hne
  | cons b p ih =>
    have hpred : (r.rem - 1).toNat = p.length := by
      rw [List.length_cons] at hrem
      bv_omega
    let m : Receiver := { r with pay := r.pay ++ [b], crc := crc32Step q r.crc b, rem := r.rem - 1,
                                 st := if r.rem - 1 = 0 then .ck3 else .pay }
    have hstep : r.stepByte q b = (m, none) := by simp only [stepByte, hst, m]
    refine .cons hstep ?_
    cases p with
    | nil =>
      have hzero : r.rem - 1 = 0 := BitVec.eq_of_toNat_eq hpred
      simp only [m, hzero, if_true, crc32Update, List.foldl_cons, List.foldl_nil]
      exact .nil _
    | cons c p =>
      have hmore : r.rem - 1 ≠ 0 := fun hzero => by
        rw [hzero] at hpred
        cases hpred
      have hpay : m.st = .pay := if_neg hmore
      have hrest := ih (r := m) hpay (List.cons_ne_nil c p) hpred
      simpa [m, crc32Update] using hrest

/-- The length byte and the payload. -/
theorem reads_length_payload (q : Config.Crc32Params) (hst : r.st = .len) {n : Byte} (hn : n.toNat = p.length) :
    Reads q r (n :: p)
      { r with length := n, pay := r.pay ++ p, crc := crc32Update q r.crc (n :: p), rem := 0, st := .ck3 } := by
  let m : Receiver := { r with length := n, rem := n, crc := crc32Step q r.crc n, st := if n = 0 then .ck3 else .pay }
  have hstep : r.stepByte q n = (m, none) := by simp only [stepByte, hst, m]
  refine .cons hstep ?_
  cases p with
  | nil =>
    obtain rfl : n = 0 := BitVec.eq_of_toNat_eq hn
    simp only [m, if_true, List.append_nil]
    exact .nil _
  | cons c p =>
    have hmore : n ≠ 0 := fun hzero => by
      rw [hzero] at hn
      cases hn
    exact reads_payload (r := m) q (if_neg hmore) (List.cons_ne_nil c p) hn

/-- A word is what the receiver puts together from its four bytes, most-significant first. -/
theorem ck_of_u32be (c : U32) :
    (c.extractLsb' 24 8).zeroExtend 32 <<< 24 ||| (c.extractLsb' 16 8).zeroExtend 32 <<< 16 |||
      (c.extractLsb' 8 8).zeroExtend 32 <<< 8 ||| (c.extractLsb' 0 8).zeroExtend 32 = c := by
  refine BitVec.eq_of_getLsbD_eq fun i hi => ?_
  interval_cases i <;> simp

/-- The CRC of the bytes before it. -/
theorem reads_crc (q : Config.Crc32Params) (hst : r.st = .ck3) :
    Reads q r (u32be (crc32Final q r.crc)) { r with ck := crc32Final q r.crc, st := .eof } := by
  let c := crc32Final q r.crc
  refine .cons (m := { r with ck := (c.extractLsb' 24 8).zeroExtend 32 <<< 24, st := .ck2 }) ?_
    (.cons rfl (.cons rfl (.cons ?_ (.nil _))))
  · simp only [stepByte, hst, c]
  · simp only [stepByte, ck_of_u32be, if_true, c]

/-! ### A whole frame -/

theorem control_marks_sequence (f : TxFrame) : f.control.getLsbD 7 = f.seq.isSome := by
  unfold TxFrame.control idByte
  cases f.seq <;> simp [BitVec.getElem_setWidth]

theorem idOf_control (f : TxFrame) : idOf f.control = f.id := by
  have hmark : idOf (if f.seq.isSome then 0x80 else 0) = 0 := by split <;> decide
  calc idOf f.control = idOf (idByte f.id) ||| idOf (if f.seq.isSome then 0x80 else 0) := BitVec.extractLsb'_or
    _ = f.id := by rw [idOf_idByte, hmark]; exact BitVec.or_zero

/-- The bytes the stuffing covers bring the receiver to EOF with the frame in its registers. -/
theorem reads_covered (q : Config.Crc32Params) (f : TxFrame) (hp : f.payload.length ≤ 255) (hst : r.st = .idc) :
    ∃ m : Receiver, Reads q r (f.covered q) m ∧ m.st = .eof ∧ m.delivery = ⟨f.id, f.seq, f.payload⟩ := by
  have hhead := reads_head q hst (control_marks_sequence f)
  have hlength : (BitVec.ofNat 8 f.payload.length).toNat = f.payload.length := by
    rw [BitVec.toNat_ofNat]
    omega
  have hbody := hhead.append (reads_length_payload q rfl hlength)
  have hcrc := hbody.append (reads_crc q rfl)
  simp only [List.nil_append, ← crc32Update_append] at hcrc
  refine ⟨_, hcrc, rfl, ?_⟩
  simp only [delivery, control_marks_sequence, idOf_control]
  cases f.seq <;> rfl

/-- The EOF byte delivers. -/
theorem receiveAll_eof (q : Config.Crc32Params) {k : Fin 3} (hk : k ≠ 2) (hst : r.st = .eof) :
    receiveAll q { r with seen := k } [0x55] = ({ r with seen := 0, st := .sof }, [r.delivery]) := by
  have hstep : r.stepByte q 0x55 = (r, some r.delivery) := by simp only [stepByte, hst, if_true]
  have hreceive : receive q { r with seen := k } 0x55 = ({ r with seen := 0 }, some r.delivery) := by
    rw [receive_other hk (by decide), hstep]
  exact receiveAll_of_delivery hreceive []

/-- The receiver reads the wire bytes of a frame as one delivery of that frame. -/
theorem receiveAll_minWire (q : Config.Crc32Params) (f : TxFrame) (hp : f.payload.length ≤ 255) (hseen : r.seen = 0) :
    ∃ r' : Receiver,
      receiveAll q r (minWire q f) = (r', [⟨f.id, f.seq, f.payload⟩]) ∧ r'.st = .sof ∧ r'.seen = 0 := by
  obtain ⟨x, hidc, hfresh, hsof⟩ := receiveAll_sof q hseen
  obtain ⟨m, hreads, heof, hdelivery⟩ := reads_covered q f hp hidc
  obtain ⟨k, hk, hstuff⟩ := hreads.receiveAll_stuff (k := 0) (by decide)
  have hx : { x with seen := 0 } = x := by rw [← hfresh]
  refine ⟨{ m with seen := 0, st := .sof }, ?_, rfl, rfl⟩
  calc receiveAll q r (minWire q f)
      = receiveAll q x (stuff 2 (f.covered q) ++ [0x55]) := by rw [minWire, List.append_assoc, hsof]
    _ = receiveAll q { m with seen := k } [0x55] := by rw [← hx]; exact hstuff [0x55]
    _ = _ := by rw [receiveAll_eof q hk heof, hdelivery]

/-! ### Any run of bytes -/

/-- The deliveries over a run of bytes, as disjoint receptions in those bytes and the ones before them since the last
delivery: each delivery ends one, and what comes after it counts anew (R271 (b), (c)). -/
theorem receptions_of_tracks (q : Config.Crc32Params) (l : List Byte) {before : List Byte} (h : r.tracks q before) :
    ∃ (receptions : List (List Byte × List Byte)) (rest : List Byte),
      before ++ l = receptions.flatMap (fun x => x.1 ++ x.2) ++ rest ∧
      List.Forall₂ (fun x d => minPasses q x.2 d) receptions (receiveAll q r l).2 := by
  induction l generalizing r before with
  | nil => exact ⟨[], before, List.append_nil _, .nil⟩
  | cons b l ih =>
    rcases hreceive : r.receive q b with ⟨m, - | d⟩
    · have hm : m.tracks q (before ++ [b]) := by
        simpa only [hreceive] using receive_tracks q r before b h (by rw [hreceive])
      obtain ⟨receptions, rest, hsplit, hpass⟩ := ih hm
      rw [receiveAll_of_no_delivery hreceive]
      exact ⟨receptions, rest, by rw [← hsplit, List.append_assoc, List.singleton_append], hpass⟩
    · have hd : (r.receive q b).2 = some d := by rw [hreceive]
      have hm : m.delivered.tracks q [] := by simpa only [hreceive] using delivered_tracks q r before b d h hd
      obtain ⟨noise, w, rfl, hw⟩ := delivery_passes q r before b d h hd
      obtain ⟨receptions, rest, hsplit, hpass⟩ := ih hm
      rw [receiveAll_of_delivery hreceive]
      refine ⟨(noise, w ++ [b]) :: receptions, rest, ?_, .cons hw hpass⟩
      rw [List.nil_append] at hsplit
      simp only [List.flatMap_cons, List.append_assoc, List.cons_append, List.nil_append, hsplit]

end Receiver

/-- Settles O33: the frame field by field under the stuffing, and the bytes since the last delivery as the invariant of a
run. -/
theorem receiverInvertsWire : Obligations.ReceiverInvertsWire :=
  ⟨fun q _ id sq p hseen hp => Receiver.receiveAll_minWire q ⟨id, sq, p⟩ hp hseen, fun q l =>
    Receiver.receptions_of_tracks q l (minCodec.init_tracks q)⟩

/-! ### The transport entered again (R285) -/

namespace State

variable {s : State} {a : Activation} {l : List Activation}

/-- Another activation of either context inside the transport is what a poll or a housekeeping on top meets. -/
theorem reentered_of_stack (hstack : s.stack = a :: l)
    (hactive : l.any Activation.inTransport = true ∨
      (s.port.context s.ctx.other).stack.any Activation.inTransport = true) : s.reentered = true := by
  rw [reentered, hstack, List.tail_cons, Bool.or_eq_true]
  exact hactive

/-- A poll or a housekeeping that meets another one raises the fault. -/
theorem advance_of_reentered (hstack : s.stack = a :: l) (ha : a = .housekeeping ∨ ∃ b, a = .poll b)
    (hreentered : s.reentered = true) : s.advance = s.raise .transportReentered := by
  rcases ha with rfl | ⟨b, rfl⟩
  · unfold advance
    rw [hstack]
    exact if_pos hreentered
  · rw [advance_of_poll hstack]
    exact if_pos hreentered

end State

/-- Settles O32: the step is the running context's, and the fault it raises stops the machine. -/
theorem reenteredTransportFaults : Obligations.ReenteredTransportFaults := by
  intro s a l hfault hsched hstack ha hactive
  have hframe : ∀ b, a ≠ .dispatch b := by
    rcases ha with rfl | ⟨b, rfl⟩ <;> simp
  have htop : (s.setCtx s.port.running).stack = a :: l := hstack
  rw [State.step_of_no_event hfault hsched hstack hframe,
    State.advance_of_reentered htop ha (State.reentered_of_stack htop hactive)]
  exact State.settle_raise (s := s.setCtx s.port.running) hfault _

end Sys2Proof.Machine

/-! ## The tick (R310, R311, R313, R314) -/

namespace Sys2Proof.Machine

/-- The emission condition in natural numbers: the time since the last emission, modulo 2^32 (R310, R311). -/
theorem Stream.due_iff (x : Stream) (now : U32) :
    x.due now = true ↔
      x.active = true ∧ x.periodMs.toNat ≤ (now.toNat + 2 ^ 32 - x.lastEmitTick.toNat) % 2 ^ 32 := by
  have helapsed : (now - x.lastEmitTick).toNat = (now.toNat + 2 ^ 32 - x.lastEmitTick.toNat) % 2 ^ 32 := by
    have hlast : x.lastEmitTick.toNat ≤ 2 ^ 32 := x.lastEmitTick.isLt.le
    rw [BitVec.toNat_sub, ← Nat.sub_add_comm hlast, Nat.add_comm]
  rw [due, helapsed, Bool.and_eq_true, decide_eq_true_iff]

/-- The meaning of `tick` is its first step (R310). -/
theorem exec_tick (s : State) : exec .tick s = .next s.tickEntry := rfl

namespace State

variable {s : State} {l : List Activation}

/-! ### The steps of a tick -/

/-- With the guard held, `tick` is skipped (R310, D55). -/
theorem tickEntry_of_busy (hbusy : s.port.rxBusy = true) : s.tickEntry = s.setRet .skipped := if_pos hbusy

/-- With the guard free, `tick` takes it and enters housekeeping above its decision (R310). -/
theorem tickEntry_of_free (hfree : s.port.rxBusy = false) :
    s.tickEntry = ((s.setRxBusy true).setRet .nothing).setStack (.housekeeping :: .tick .decide :: s.stack) := by
  unfold tickEntry
  rw [hfree, if_neg Bool.false_ne_true, push_eq (.tick .decide), push_setStack, setRet_stack, setRxBusy_stack]

/-- Housekeeping that re-enters nothing returns (R271 (f), R285). -/
theorem advance_of_housekeeping (hstack : s.stack = .housekeeping :: l) (halone : s.reentered = false) :
    s.advance = s.setStack (l.dropWhile Activation.isAwaiting) := by
  have hadvance : s.advance = s.stepHousekeeping := by
    unfold advance
    rw [hstack]
  rw [hadvance, stepHousekeeping, halone, if_neg Bool.false_ne_true, leave_eq, hstack, List.tail_cons]

theorem advance_of_decide (hstack : s.stack = .tick .decide :: l) : s.advance = s.stepDecide := by
  unfold advance
  rw [hstack]

/-- A due stream emits: the stream register advances, and the emission carries the counter before it (R310, R314). -/
theorem stepDecide_of_due (hstack : s.stack = .tick .decide :: l) (hdue : s.port.stream.due s.clock = true) :
    s.stepDecide =
      (s.setStream { s.port.stream with lastEmitTick := s.clock, counter := s.port.stream.counter + 1 }).setStack
        (.tick (.emit s.port.stream.counter s.clock) :: l) := by
  refine (if_pos hdue).trans ?_
  rw [replaceTop_eq, setStream_stack, hstack]
  rfl

/-- A stream that is not due goes on to the drain (R310). -/
theorem stepDecide_of_not_due (hstack : s.stack = .tick .decide :: l) (hdue : ¬ s.port.stream.due s.clock = true) :
    s.stepDecide = s.setStack (.tick .drain :: l) := by
  refine (if_neg hdue).trans ?_
  rw [replaceTop_eq, hstack, List.tail_cons]

/-- The emission hands the snapshot of that moment to `Transport.send` as an UNREL frame, over the drain (R310, R313). -/
theorem advance_of_emit {k now : U32} (hstack : s.stack = .tick (.emit k now) :: l) :
    s.advance = s.setStack (.transmit (.spaceTest ⟨0x22, none, s.snapshot k now⟩) :: .tick .drain :: l) := by
  have hadvance : s.advance = s.stepEmit k now := by
    unfold advance
    rw [hstack]
  rw [hadvance, stepEmit, transportSend_once _ _ _ (.inl rfl), replaceTop_eq, push_setStack, hstack, List.tail_cons]

end State

/-- Settles O57: the decision is by the emission condition, read in natural numbers, and each branch is one update of the
running context. -/
theorem tickDecidesEmission : Obligations.TickDecidesEmission := by
  intro s l hfault hsched hstack st due
  let r := s.setCtx s.port.running
  have htop : r.stack = .tick .decide :: l := hstack
  have hdecide : ∀ t, r.stepDecide = t → t.fault = none → step s = .next t := fun t ht =>
    State.step_eq_next_of_advance hfault hsched hstack (by simp) ((State.advance_of_decide htop).trans ht)
  have hcondition : r.port.stream.due r.clock = true ↔ due := Stream.due_iff ..
  exact ⟨
    fun hdue => ⟨_, hdecide _ (State.stepDecide_of_due htop (hcondition.2 hdue)) hfault, rfl,
      State.setStack_stack _ _, rfl, rfl, rfl⟩,
    fun hdue => ⟨_, hdecide _ (State.stepDecide_of_not_due htop (mt hcondition.1 hdue)) hfault, rfl,
      State.setStack_stack _ _, rfl, rfl, rfl⟩⟩

/-- Settles O56: the entry by the guard; the housekeeping that is alone in the transport returns, and the decision below it
does not wait. -/
theorem tickSkipsOrStarts : Obligations.TickSkipsOrStarts := by
  refine ⟨fun s => ⟨fun hbusy => ?_, fun hfree => ?_⟩, fun s l hfault hsched hstack hown hother => ⟨?_, fun hhead => ?_⟩⟩
  · rw [exec_tick, State.tickEntry_of_busy hbusy]
  · rw [exec_tick, State.tickEntry_of_free hfree]
  · have htop : (s.setCtx s.port.running).stack = .housekeeping :: l := hstack
    exact State.step_eq_next_of_advance hfault hsched hstack (by simp)
      (State.advance_of_housekeeping htop (State.not_reentered_of_alone htop hown hother)) hfault
  · obtain ⟨l', rfl⟩ := List.head?_eq_some_iff.1 hhead
    exact List.dropWhile_cons_of_neg Bool.false_ne_true

/-- Settles O58: the running context's step sends the snapshot as an unreliable frame over the drain. -/
theorem tickEmitsSnapshot : Obligations.TickEmitsSnapshot := fun s _ _ _ hfault hsched hstack =>
  State.step_eq_next_of_advance hfault hsched hstack (by simp)
    (State.advance_of_emit (s := s.setCtx s.port.running) hstack) hfault

end Sys2Proof.Machine

/-! ## A change of one byte changes the CRC-16 (R141), and so the stored record is not trusted (R334, R337)

As for the CRC-32, the register's step loses nothing: the polynomial has bit 0 set, so the bit that leaves the register at
the top is the one that comes in at the bottom. -/

namespace Sys2Proof.Machine

open Function (Injective)

/-! ### The CRC-16's step -/

/-- The bit that leaves the register comes in at the bottom with the polynomial (R141). -/
theorem crc16Bit_getLsbD_zero (c : U16) : (crc16Bit c).getLsbD 0 = c.getLsbD 15 := by
  rw [crc16Bit]
  cases hleft : c.getLsbD 15 <;> simp

/-- The bottom bit says whether the polynomial was XORed in, and the shift keeps the bits below the one that left. -/
theorem crc16Bit_injective : Injective crc16Bit := by
  intro x y h
  have hleft : x.getLsbD 15 = y.getLsbD 15 := by rw [← crc16Bit_getLsbD_zero, h, crc16Bit_getLsbD_zero]
  have hkept : x <<< 1 = y <<< 1 := by
    simp only [crc16Bit, hleft] at h
    split at h
    · exact (BitVec.xor_left_inj _).1 h
    · exact h
  refine BitVec.eq_of_getLsbD_eq fun i hi => ?_
  rcases Nat.lt_or_eq_of_le (Nat.le_of_lt_succ hi) with hlow | rfl
  · have hinside : i + 1 < 16 := Nat.succ_lt_succ hlow
    simpa [hi, hinside] using congrArg (·.getLsbD (i + 1)) hkept
  · exact hleft

/-- A step is injective in the register with the byte XORed in at the top (R141). -/
theorem crc16Step_eq_iff (c d : U16) (a b : Byte) :
    crc16Step c a = crc16Step d b ↔ c ^^^ (a.zeroExtend 16 <<< 8) = d ^^^ (b.zeroExtend 16 <<< 8) :=
  (repeat_injective crc16Bit_injective 8).eq_iff

theorem crc16Step_injective_register (b : Byte) : Injective (crc16Step · b) :=
  fun _ _ h => (BitVec.xor_left_inj _).1 ((crc16Step_eq_iff _ _ _ _).1 h)

theorem crc16Step_injective_byte (c : U16) : Injective (crc16Step c) := by
  intro a b h
  have hoperand : a.zeroExtend 16 <<< 8 = b.zeroExtend 16 <<< 8 :=
    (BitVec.xor_right_inj c).1 ((crc16Step_eq_iff c c a b).1 h)
  refine BitVec.eq_of_getLsbD_eq fun i hi => ?_
  have hinside : i + 8 < 16 ∧ i < 16 := ⟨by omega, by omega⟩
  simpa [hi, hinside] using congrArg (·.getLsbD (i + 8)) hoperand

/-- Settles O14: the registers differ after the changed byte, and the bytes after it do not make them equal again. -/
theorem crc16DetectsOneByte : Obligations.Crc16DetectsOneByte := fun xs ys _ _ hab =>
  foldl_ne_of_one_byte crc16Step_injective_register crc16Step_injective_byte _ xs ys hab

/-- The same for a byte replaced in place. -/
theorem crc16_set_ne {l : List Byte} {j : Nat} {b : Byte} (hj : j < l.length) (hb : l[j]? ≠ some b) :
    crc16 (l.set j b) ≠ crc16 l := by
  have hbyte : b ≠ l[j] := fun h => hb (h ▸ List.getElem?_eq_getElem hj)
  have hsplit : l = l.take j ++ l[j] :: l.drop (j + 1) := by
    rw [List.getElem_cons_drop, List.take_append_drop]
  intro h
  rw [List.set_eq_take_append_cons_drop, if_pos hj] at h
  exact crc16DetectsOneByte _ _ _ _ hbyte (h.trans (congrArg crc16 hsplit))

/-! ### A byte of the record replaced -/

namespace Memory

variable {d b : Byte} {m : List Host.Cell}

/-- A write behind a run of addresses leaves what the run reads as. -/
theorem readBytes_write_behind (h : wf d m = true) {a n k : Nat} (hk : a + n ≤ k) :
    readBytes d (write d m k b) a n = readBytes d m a n := by
  refine List.map_congr_left fun i hi => ?_
  have hi : i < n := List.mem_range.1 hi
  rw [read_write h, if_neg (by omega)]

/-- A write inside a run of addresses replaces that byte of the run. -/
theorem readBytes_write_inside (h : wf d m = true) (a n j : Nat) :
    readBytes d (write d m (a + j) b) a n = (readBytes d m a n).set j b := by
  refine List.ext_getElem (by simp) fun i hi _ => ?_
  simp only [readBytes, List.getElem_map, List.getElem_range, List.getElem_set, read_write h, Nat.add_left_cancel_iff,
    eq_comm]

end Memory

namespace State

variable {s : State}

/-- What `Store.load` has checked of a record it trusts: the data has the length and the CRC of the header (R334). -/
theorem storedBlob_checked {l : List Byte} (h : s.storedBlob = some l) :
    (rd16le (s.flashBytes s.params.recordAddr 8) 4).toNat = l.length ∧
      s.flashBytes (s.params.recordAddr + 8) l.length = l ∧
      crc16 l = rd16le (s.flashBytes s.params.recordAddr 8) 6 := by
  unfold storedBlob at h
  simp only at h
  split at h
  · cases h
  · split at h
    · rename_i hcrc
      cases h
      have hsize := Memory.length_readBytes (d := s.params.flashErased) (m := s.flash.cells) (s.params.recordAddr + 8)
        (rd16le (s.flashBytes s.params.recordAddr 8) 4).toNat
      exact ⟨hsize.symm, congrArg (s.flashBytes _) hsize, hcrc⟩
    · cases h

/-- A record that replaces one data byte of a trusted record under the same header is not trusted (R334, R337). -/
theorem storedBlob_eq_none_of_changed {t : State} {l : List Byte} {j : Nat} {b : Byte} (hstored : s.storedBlob = some l)
    (hj : j < l.length) (hb : l[j]? ≠ some b)
    (hheader : t.flashBytes t.params.recordAddr 8 = s.flashBytes s.params.recordAddr 8)
    (hdata : t.flashBytes (t.params.recordAddr + 8) l.length = l.set j b) : t.storedBlob = none := by
  obtain ⟨hsize, -, hcrc⟩ := storedBlob_checked hstored
  refine Option.eq_none_iff_forall_ne_some.2 fun l' hstored' => ?_
  obtain ⟨hsize', hread, hcrc'⟩ := storedBlob_checked hstored'
  rw [hheader] at hsize' hcrc'
  have hlength : l'.length = l.length := hsize'.symm.trans hsize
  have hl' : l' = l.set j b := by rw [← hread, hlength, hdata]
  exact crc16_set_ne hj hb ((congrArg crc16 hl').symm.trans (hcrc'.trans hcrc.symm))

end State

/-- Settles O54: the write leaves the header and replaces one byte of the data, whose CRC-16 then differs. -/
theorem corruptRecordIsAbsent : Obligations.CorruptRecordIsAbsent := by
  intro s l j b hflash hstored hj hb t
  obtain ⟨hwf, -⟩ := hflash
  obtain ⟨-, hread, -⟩ := State.storedBlob_checked hstored
  have hheader : t.flashBytes t.params.recordAddr 8 = s.flashBytes s.params.recordAddr 8 :=
    Memory.readBytes_write_behind hwf (Nat.le_add_right _ _)
  have hdata : t.flashBytes (t.params.recordAddr + 8) l.length = l.set j b :=
    (Memory.readBytes_write_inside hwf _ _ _).trans (congrArg (·.set j b) hread)
  have habsent := State.storedBlob_eq_none_of_changed hstored hj hb hheader hdata
  exact ⟨habsent, by rw [State.storeLoad_eq, habsent]; rfl⟩

end Sys2Proof.Machine

/-! ## LoadBinary again (R340, R341) -/

namespace Sys2Proof.Machine

/-- Bytes written over a list once more leave it as it is. -/
theorem overwrite_overwrite {α : Type} (l bytes : List α) {base : Nat} (hbase : base ≤ l.length) :
    let w := l.take base ++ bytes ++ l.drop (base + bytes.length)
    w.take base ++ bytes ++ w.drop (base + bytes.length) = w := by
  intro w
  have hlength : w.length = max l.length (base + bytes.length) := length_overwrite l bytes hbase
  refine List.ext_getElem? fun j => ?_
  rw [getElem?_overwrite w bytes (by omega), getElem?_overwrite l bytes hbase]
  split <;> rfl

theorem length_chunkStart_le (c : Chunk) {blob : List Byte} (hcap : blob.length ≤ 2048) :
    (chunkStart c blob).length ≤ 2048 := by
  unfold chunkStart
  split
  · exact Nat.zero_le _
  · exact hcap

/-- No free byte is drawn exactly where the chunk's place is within the blob it extends (R341). -/
theorem chunkHasGap_eq_false_iff (c : Chunk) (blob : List Byte) :
    chunkHasGap c blob = false ↔ chunkAddr c ≤ (chunkStart c blob).length :=
  decide_eq_false_iff_not.trans Nat.not_lt

/-- Without a gap the blob before the data is the one the chunk extends. -/
theorem chunkBase_of_no_gap (n : Nat) {c : Chunk} {blob : List Byte} (hgap : chunkAddr c ≤ (chunkStart c blob).length) :
    chunkBase n c blob = chunkStart c blob := by
  rw [chunkBase_eq, Nat.sub_eq_zero_of_le hgap]
  exact List.append_nil _

/-- Chunk 0 stands at the start. -/
theorem chunkAddr_of_zero {c : Chunk} (hzero : c.chunkIdx = 0) : chunkAddr c = 0 := by
  rw [chunkAddr, hzero]
  rfl

/-- The blob a chunk has been written to reaches the chunk's place. -/
theorem chunkAddr_le_length_loadChunk (n : Nat) (c : Chunk) (blob : List Byte) :
    chunkAddr c ≤ (chunkStart c (loadChunk n c blob)).length := by
  by_cases hzero : c.chunkIdx = 0
  · rw [chunkAddr_of_zero hzero]
    exact Nat.zero_le _
  · have hbase := length_chunkBase n c blob
    rw [chunkStart, if_neg hzero, loadChunk_eq, length_overwrite _ _ (by omega)]
    omega

/-- The default LoadBinary of the same chunk once more leaves the blob, whichever value is drawn (R340 (c)). -/
theorem loadChunk_loadChunk (n k : Nat) (c : Chunk) (blob : List Byte) :
    loadChunk k c (loadChunk n c blob) = loadChunk n c blob := by
  have hagain := chunkBase_of_no_gap k (chunkAddr_le_length_loadChunk n c blob)
  by_cases hzero : c.chunkIdx = 0
  · have hstart : ∀ b, chunkStart c b = [] := fun _ => if_pos hzero
    have hfirst : chunkBase n c blob = [] :=
      (chunkBase_of_no_gap n (by rw [chunkAddr_of_zero hzero]; exact Nat.zero_le _)).trans (hstart blob)
    rw [loadChunk_eq k, hagain, hstart, loadChunk_eq n, hfirst]
  · have hstart : ∀ b, chunkStart c b = b := fun _ => if_neg hzero
    have hbase := length_chunkBase n c blob
    rw [loadChunk_eq k, hagain, hstart, loadChunk_eq n]
    exact overwrite_overwrite _ _ (by omega)

namespace State

variable {s : State} {p : List Byte} {c : Chunk}

/-- The default executor's answer: the chunk's blob, and a free value drawn where there is a gap (R341). -/
theorem execLoad_of_blobStore (hexec : s.params.exec = .blobStore) :
    s.execLoad p c =
      ((s.setBlob (loadChunk s.fresh c s.blob)).setFresh (if chunkHasGap c s.blob then s.fresh + 1 else s.fresh),
        Config.execChannels (loadChunk s.fresh c s.blob) c.chunkIdx c.totalChunks) := by
  simp only [execLoad, hexec]
  rfl

/-- Another executor's answer (R340). -/
theorem execLoad_of_other {n : Nat} (hexec : s.params.exec = .other n) :
    s.execLoad p c =
      (s.setExec (loadOther n p s.execState), (Config.execOther n p s.execState).2) := by
  simp only [execLoad, hexec]

/-- Every executor keeps the blob within its buffer (R340 (b)). -/
theorem length_execLoad_le (p : List Byte) (c : Chunk) (hcap : s.blob.length ≤ 2048) :
    (s.execLoad p c).1.blob.length ≤ 2048 := by
  cases hexec : s.params.exec with
  | blobStore =>
    rw [execLoad_of_blobStore hexec]
    exact length_loadChunk_le _ _ hcap
  | other n =>
    rw [execLoad_of_other hexec]
    exact length_loadOther n p s.execState hcap

/-- The default executor answers the same payload as before and leaves the state (R340 (c), R341). -/
theorem execLoad_again_of_blobStore (hexec : s.params.exec = .blobStore) :
    (s.execLoad p c).1.execLoad p c = s.execLoad p c := by
  have hparams : (s.execLoad p c).1.params.exec = .blobStore := by rw [execLoad_of_blobStore hexec]; exact hexec
  have hblob : (s.execLoad p c).1.blob = loadChunk s.fresh c s.blob := by rw [execLoad_of_blobStore hexec]; rfl
  have hgap : chunkHasGap c (loadChunk s.fresh c s.blob) = false :=
    (chunkHasGap_eq_false_iff _ _).2 (chunkAddr_le_length_loadChunk ..)
  rw [execLoad_of_blobStore hparams, hblob, loadChunk_loadChunk, hgap, execLoad_of_blobStore hexec]
  rfl

/-- Another executor leaves the state when it is given the same payload once more (R340 (c)). -/
theorem execLoad_again_of_other {n : Nat} (hexec : s.params.exec = .other n) :
    ((s.execLoad p c).1.execLoad p c).1 = (s.execLoad p c).1 := by
  have hparams : (s.setExec (loadOther n p s.execState)).params.exec = .other n := hexec
  have hstate : (s.setExec (loadOther n p s.execState)).execState = loadOther n p s.execState := rfl
  rw [execLoad_of_other hexec, execLoad_of_other hparams, hstate, loadOther_loadOther]
  rfl

end State

/-- Settles O45: both executors within the buffer, each by its own law of repetition. -/
theorem loadBinaryBoundedAndRepeatable : Obligations.LoadBinaryBoundedAndRepeatable := by
  intro s p c hcap t
  refine ⟨State.length_execLoad_le p c hcap, ?_, fun hexec => ⟨?_, ?_⟩⟩
  · cases hexec : s.params.exec with
    | blobStore => exact congrArg Prod.fst (State.execLoad_again_of_blobStore hexec)
    | other n => exact State.execLoad_again_of_other hexec
  · have hblob : t.blob = loadChunk s.fresh c s.blob := congrArg (·.1.blob) (State.execLoad_of_blobStore hexec)
    rw [hblob, length_loadChunk _ _ (length_chunkStart_le c hcap), chunkStart, apply_ite List.length]
    rfl
  · exact congrArg Prod.snd (State.execLoad_again_of_blobStore hexec)

end Sys2Proof.Machine

/-! ## The telemetry snapshot (R350 to R354) -/

namespace Sys2Proof.Machine

/-! ### Reading fields out of a byte string -/

/-- Where one part of a list ends, the next begins. -/
theorem drop_add_of_drop {α : Type} {l part rest : List α} {i n : Nat} (h : l.drop i = part ++ rest)
    (hn : part.length = n) : l.drop (i + n) = rest := by
  rw [← List.drop_drop, h, List.drop_left' hn]

/-- Among parts of one length `n`, part `j` begins at `n·j`. -/
theorem drop_add_of_drop_flatMap {α β : Type} {f : α → List β} {n : Nat} {l rest : List β} {as : List α} {i j : Nat}
    {a : α} (h : l.drop i = as.flatMap f ++ rest) (hf : ∀ a, (f a).length = n) (ha : as[j]? = some a) :
    l.drop (i + n * j) = f a ++ ((as.drop (j + 1)).flatMap f ++ rest) := by
  induction as generalizing i j with
  | nil => cases ha
  | cons x as ih =>
    rw [List.flatMap_cons, List.append_assoc] at h
    cases j with
    | zero =>
      obtain rfl : x = a := Option.some.inj ha
      exact h
    | succ j =>
      rw [Nat.mul_succ, Nat.add_comm (n * j), ← Nat.add_assoc]
      exact ih (drop_add_of_drop h (hf x)) ha

theorem length_flatMap_of_const {α β : Type} {f : α → List β} {n : Nat} (hf : ∀ a, (f a).length = n) (l : List α) :
    (l.flatMap f).length = n * l.length := by
  simp [List.length_flatMap, hf, Nat.mul_comm]

theorem byteAt_drop (l : List Byte) (i k : Nat) : byteAt (l.drop i) k = byteAt l (i + k) := by
  simp [byteAt, List.getD_eq_getElem?_getD]

theorem length_u16le (v : U16) : (u16le v).length = 2 := rfl

theorem length_u32le (v : U32) : (u32le v).length = 4 := rfl

/-- `rd32le` reads back what `u32le` wrote (R11). -/
theorem rd32le_u32le (v : U32) : rd32le (u32le v) 0 = v := by
  refine BitVec.eq_of_getLsbD_eq fun i hi => ?_
  simp only [rd32le, rd16le, u32le, byteAt]
  interval_cases i <;> simp

/-- A 16-bit field reads as the value it was written from (R11). -/
theorem rd16le_of_drop {l rest : List Byte} {i : Nat} {v : U16} (h : l.drop i = u16le v ++ rest) : rd16le l i = v := by
  have hfield : rd16le l i = rd16le (l.drop i) 0 := by
    simp only [rd16le, byteAt_drop]
    rfl
  rw [hfield, h]
  exact rd16le_u16le v

/-- The same for a 32-bit field. -/
theorem rd32le_of_drop {l rest : List Byte} {i : Nat} {v : U32} (h : l.drop i = u32le v ++ rest) : rd32le l i = v := by
  have hfield : rd32le l i = rd32le (l.drop i) 0 := by
    simp only [rd32le, rd16le, byteAt_drop]
    rfl
  rw [hfield, h]
  exact rd32le_u32le v

/-! ### The digital inputs and the entries -/

/-- Bit `i` of the mask is input `i` (R350). -/
theorem getLsbD_dinMask (l : List Bool) {i : Nat} (hi : i < 8) : (dinMask l).getLsbD i = l.getD i false := by
  induction l generalizing i with
  | nil => simp [dinMask]
  | cons x l ih =>
    have hmask : dinMask (x :: l) = (dinMask l <<< 1) ||| (if x then 1 else 0) := rfl
    rw [hmask]
    cases i with
    | zero => cases x <;> simp
    | succ i =>
      have hshift : ((dinMask l <<< 1) ||| (if x then 1 else 0)).getLsbD (i + 1) = (dinMask l).getLsbD i := by
        cases x <;> simp [hi, Nat.lt_of_succ_lt hi]
      rw [hshift, ih (Nat.lt_of_succ_lt hi), List.getD_cons_succ]

theorem length_entryBytes (e : U16 × U32) : (entryBytes e).length = 6 := rfl

/-- The cap leaves room for a number of entries, and these are appended in order (R352). -/
theorem entriesFrom_eq (offset : Nat) (l : List (U16 × U32)) :
    entriesFrom offset l = (l.take ((200 - offset) / 6)).flatMap entryBytes := by
  induction l generalizing offset with
  | nil => simp [entriesFrom]
  | cons e l ih =>
    rw [entriesFrom]
    split
    · rename_i hroom
      have hmore : (200 - offset) / 6 = (200 - (offset + 6)) / 6 + 1 := by
        simp only [Config.telemetryEntry, Config.telemetryCap] at hroom
        omega
      rw [ih, hmore, List.take_succ_cons, List.flatMap_cons]
    · rename_i hroom
      have hfull : (200 - offset) / 6 = 0 := by
        simp only [Config.telemetryEntry, Config.telemetryCap] at hroom
        omega
      rw [hfull]
      rfl

namespace State

/-! ### The layout -/

/-- The channels the snapshot has entries for: the first `V`, at most 15 (R350, R352). -/
def reported (s : State) : List (U16 × U32) := (s.channels.take (s.channels.length % 2 ^ 16)).take 15

theorem toNat_channelCount (s : State) : s.channelCount.toNat = s.channels.length % 2 ^ 16 := BitVec.toNat_ofNat ..

theorem length_reported (s : State) : s.reported.length = min (s.channels.length % 2 ^ 16) 15 := by
  have hmod := Nat.mod_le s.channels.length (2 ^ 16)
  rw [reported, List.length_take, List.length_take]
  omega

/-- The snapshot field by field (R350, R351). -/
theorem snapshot_eq (s : State) (k now : U32) :
    s.snapshot k now = u32le k ++ (u32le now ++ (s.driver.state.toList ++ (s.adc.toList.flatMap u16le ++
      ([dinMask s.din.toList] ++ (u32le (now / 1000) ++ (List.replicate 8 0 ++ (u16le s.channelCount ++
        (List.replicate 11 0 ++ (u16le s.channelCount ++ s.reported.flatMap entryBytes))))))))) := by
  have hentries : entriesFrom 106 (s.channels.take s.channelCount.toNat) = s.reported.flatMap entryBytes := by
    rw [entriesFrom_eq, toNat_channelCount]
    rfl
  rw [snapshot, snapshotFixed, hentries]
  simp only [List.append_assoc]
  rfl

/-- The snapshot's length (R353). -/
theorem length_snapshot (s : State) (k now : U32) :
    (s.snapshot k now).length = 106 + 6 * min (s.channels.length % 2 ^ 16) 15 := by
  rw [snapshot_eq]
  simp only [List.length_append, length_flatMap_of_const length_u16le, length_flatMap_of_const length_entryBytes,
    length_u16le, length_u32le, length_reported, List.length_replicate, List.length_singleton, Vector.length_toList,
    Config.nOut, Config.nAn]
  omega

end State

/-- Settles O59: the fields' lengths add up to 106, and there are at most 15 entries. -/
theorem snapshotLength : Obligations.SnapshotLength := fun s k now => by
  have hlength := s.length_snapshot k now
  exact ⟨hlength, by omega⟩

/-- Settles O60: each field begins where the one before it ends, and reads as it was written; `hN` says what stands from
offset N on. -/
theorem snapshotFields : Obligations.SnapshotFields := by
  intro s k now snap
  have h0 : snap.drop 0 = _ := s.snapshot_eq k now
  have h4 : snap.drop 4 = _ := drop_add_of_drop h0 rfl
  have h8 : snap.drop 8 = _ := drop_add_of_drop h4 rfl
  have h38 : snap.drop 38 = _ := drop_add_of_drop h8 (Vector.length_toList ..)
  have h78 : snap.drop 78 = _ := drop_add_of_drop h38
    ((length_flatMap_of_const length_u16le _).trans (congrArg (2 * ·) (Vector.length_toList ..)))
  have h79 : snap.drop 79 = _ := drop_add_of_drop h78 rfl
  have h83 : snap.drop 83 = _ := drop_add_of_drop h79 rfl
  have h91 : snap.drop 91 = _ := drop_add_of_drop h83 rfl
  have h93 : snap.drop 93 = _ := drop_add_of_drop h91 rfl
  have h104 : snap.drop 104 = _ := drop_add_of_drop h93 rfl
  have h106 : snap.drop 106 = _ := drop_add_of_drop h104 rfl
  refine ⟨s.length_snapshot k now, rd32le_of_drop h0, rd32le_of_drop h4, fun i => ?_, fun i => ?_, fun i => ?_, ?_, ?_,
    rd16le_of_drop h91, ?_, rd16le_of_drop h104, fun j id v hj hcap hentry => ?_⟩
  · rw [← List.getElem?_drop, h8, List.getElem?_append_left (by simp)]
    simp
  · have hsample : s.adc.toList[i.val]? = some s.adc[i] := by simp
    exact rd16le_of_drop (drop_add_of_drop_flatMap h38 length_u16le hsample)
  · have hmask : snap.getD 78 0 = dinMask s.din.toList := by
      rw [List.getD_eq_getElem?_getD, ← Nat.add_zero 78, ← List.getElem?_drop, h78]
      rfl
    rw [hmask, getLsbD_dinMask _ i.isLt]
    simp
  · rw [rd32le_of_drop h79]
    exact BitVec.toNat_udiv
  · rw [h83, List.take_left' List.length_replicate]
  · rw [h93, List.take_left' List.length_replicate]
  · have hreported : s.reported[j]? = some (id, v) := by
      rw [State.reported, List.getElem?_take_of_lt hcap, List.getElem?_take_of_lt hj, hentry]
    rw [← List.append_nil (List.flatMap _ _)] at h106
    have hfield := drop_add_of_drop_flatMap h106 length_entryBytes hreported
    rw [entryBytes, List.append_assoc] at hfield
    exact ⟨rd16le_of_drop hfield, rd32le_of_drop (drop_add_of_drop hfield rfl)⟩

end Sys2Proof.Machine

/-! ## The machine right after a power-on (R441, R443, R444) -/

namespace Sys2Proof.Machine

namespace State

/-- Every port a power-on makes beside the selected one is at its reset values. -/
theorem mem_initial_others {p : Config.Params} {q : Port} (hq : q ∈ (initial p).others) :
    ∃ k, q = Port.reset p 0 k [] := by
  obtain ⟨k, -, rfl⟩ := List.mem_map.1 hq
  exact ⟨k + 1, rfl⟩

/-- There are `N_PORTS` ports, the selected one among them (R412). -/
theorem length_initial_others (p : Config.Params) : (initial p).others.length + 1 = p.nPorts := by
  have hlength : (initial p).others.length = p.nPorts - 1 := (List.length_map _).trans List.length_range
  rw [hlength, Nat.sub_add_cancel p.nPorts_pos]

/-- An erased sector stores no cell (R330). -/
theorem initial_flash_ok (p : Config.Params) : (initial p).flash.ok p :=
  ⟨rfl, fun _ hc => absurd hc List.not_mem_nil⟩

/-- Whatever the OPEN parameters are, a power-on leaves the machine within the bounds. -/
theorem initial_inv (p : Config.Params) : (initial p).Inv := by
  refine ⟨reset_port_ok p 0 0 [], fun q hq => ?_, length_initial_others p, Nat.zero_le _, initial_flash_ok p⟩
  obtain ⟨k, rfl⟩ := mem_initial_others hq
  exact reset_port_ok p 0 k []

/-- Whatever the OPEN parameters are, a power-on leaves the machine orderly, with nothing scheduled. -/
theorem initial_orderly (p : Config.Params) : (initial p).Orderly := by
  refine ⟨rfl, rfl, reset_port_orderly p 0 0 [], fun q hq => ?_⟩
  obtain ⟨k, rfl⟩ := mem_initial_others hq
  exact reset_port_orderly p 0 k []

end State

/-- Settles O9: the machine right after reset is the one a power-on leaves, with the free parameters of `Config.params`;
each of its ports is at its reset values, which are within the bounds and idle. -/
theorem resetIsWithinInvariants : Obligations.ResetIsWithinInvariants :=
  ⟨State.initial_inv Config.params, State.initial_orderly Config.params⟩

end Sys2Proof.Machine
